-- ==== Sys2Proof/Word.lean ====
section
/-!
DEFINITION. The widths HBR-PE's spec speaks of, as names for bit vectors.
Everything a test could show wrong about arithmetic stands in Machine/Arith.lean instead.
-/
namespace Sys2Proof

/-- A 32-bit host word, register or command word (20_memory.md R60, R77). -/
abbrev Word := BitVec 32

/-- One byte: a bus byte, a colour component, a character code, a host byte offset. -/
abbrev Byte := BitVec 8

/-- A 16-bit segment mask of one display cell (42_segment_display.md R214). -/
abbrev Mask := BitVec 16

/-- A 7-bit register-bus device address (20_memory.md R64). -/
abbrev BusAddr := BitVec 7

end Sys2Proof
end

