-- ==== Sys2Proof/Syntax.lean ====
section
/-!
DEFINITION. The command set: one constructor per row of opcode_table.json (30_encoding.md R93).
Index and length operands are the numbers `IDX` carries (30_encoding.md R96, R97); that they fit `IDX` is WellFormed.lean's check.
-/
namespace Sys2Proof

/-- The alignment `F` selects in class S (30_encoding.md R92). -/
inductive Align where
  /-- `F` = 0. -/
  | left
  /-- `F` = 1. -/
  | right
  deriving DecidableEq, Repr, Inhabited

/-- The 17 rows of 30_encoding.md R93. -/
inductive Instr where
  /-- `nop` (43_system.md R243). -/
  | nop
  /-- `led.set i` (40_led_strip.md R122). -/
  | ledSet (idx : Nat)
  /-- `led.set.all` (40_led_strip.md R122). -/
  | ledSetAll
  /-- `led.on i` (40_led_strip.md R123). -/
  | ledOn (idx : Nat)
  /-- `led.on.all` (40_led_strip.md R123). -/
  | ledOnAll
  /-- `led.off i` (40_led_strip.md R124). -/
  | ledOff (idx : Nat)
  /-- `led.off.all` (40_led_strip.md R124). -/
  | ledOffAll
  /-- `led.flush` (40_led_strip.md R125). -/
  | ledFlush
  /-- `led.dispose` (43_system.md R240). -/
  | ledDispose
  /-- `env.init` (41_env_sensor.md R170). -/
  | envInit
  /-- `env.readt` (41_env_sensor.md R172). -/
  | envReadT
  /-- `env.readp` (41_env_sensor.md R173). -/
  | envReadP
  /-- `env.dispose` (43_system.md R241). -/
  | envDispose
  /-- `seg.init` (42_segment_display.md R210). -/
  | segInit
  /-- `seg.show n, l|r` (42_segment_display.md R211). -/
  | segShow (n : Nat) (align : Align)
  /-- `seg.dispose` (43_system.md R242). -/
  | segDispose
  /-- `dispose.all` (43_system.md R244). -/
  | disposeAll
  deriving DecidableEq, Repr, Inhabited

end Sys2Proof
end

