-- ==== Sys2Proof/WellFormed.lean ====
section
/-!
DEFINITION. Which instructions are well formed: the operand carried by `IDX` is an 8-bit number
(30_encoding.md R91, R92, R100: "0 ≤ i ≤ 255", "0 ≤ n ≤ 255"). Every other field is well formed by its type.
-/
namespace Sys2Proof

/-- The number carried in `IDX`, for the rows that carry one. -/
def Instr.idxOperand : Instr → Option Nat
  | .ledSet i | .ledOn i | .ledOff i => some i
  | .segShow n _ => some n
  | .nop | .ledSetAll | .ledOnAll | .ledOffAll | .ledFlush | .ledDispose | .envInit | .envReadT | .envReadP
  | .envDispose | .segInit | .segDispose | .disposeAll => none

/-- The check: an operand carried in `IDX` is at most 255 (30_encoding.md R100). -/
def Instr.wellFormed (i : Instr) : Bool :=
  match i.idxOperand with
  | none => true
  | some n => decide (n < 256)

end Sys2Proof
end

