-- ==== Sys2Proof/Decode.lean ====
section
/-!
DEFINITION. Command decoding (30_encoding.md R90 to R93, R98) and, after it, the encoder (R100).
A command is one 32-bit word moved whole, so there is no byte order to decode (20_memory.md R77, 30_encoding.md R99).
-/
namespace Sys2Proof

/-- `OP` = w[7:0] (30_encoding.md R91). -/
def opField (w : Word) : Byte := w.extractLsb' 0 8

/-- `IDX` = w[15:8] as an unsigned number (30_encoding.md R91). -/
def idxField (w : Word) : Nat := (w.extractLsb' 8 8).toNat

/-- `F` = w[16] (30_encoding.md R91). -/
def fField (w : Word) : Bool := w.getLsbD 16

/-- `RSV` = w[31:17] (30_encoding.md R91). -/
def rsvField (w : Word) : BitVec 15 := w.extractLsb' 17 15

/-- The alignment `F` selects in class S (30_encoding.md R92). -/
def alignOf (f : Bool) : Align := if f then .right else .left

/-- One row of the opcode table: a word w is the row's when (w & mask) = match; `build` reads `IDX` and `F`. -/
structure OpRow where
  mask : Word
  pattern : Word
  build : Nat → Bool → Instr

/-- A class N row, and the ALL form of a class L row: every bit is fixed. -/
def OpRow.fixed (pattern : Word) (i : Instr) : OpRow := ⟨0xFFFFFFFF#32, pattern, fun _ _ => i⟩

/-- The single form of a class L row: `IDX` is free, `F` = 0, `RSV` = 0. -/
def OpRow.single (pattern : Word) (i : Nat → Instr) : OpRow := ⟨0xFFFF00FF#32, pattern, fun idx _ => i idx⟩

/-- The opcode table of 30_encoding.md R93, in its order. -/
def opcodeTable : List OpRow :=
  [ .fixed  0x00000000#32 .nop,
    .single 0x00000001#32 .ledSet,
    .fixed  0x00010001#32 .ledSetAll,
    .single 0x00000002#32 .ledOn,
    .fixed  0x00010002#32 .ledOnAll,
    .single 0x00000003#32 .ledOff,
    .fixed  0x00010003#32 .ledOffAll,
    .fixed  0x00000004#32 .ledFlush,
    .fixed  0x00000005#32 .ledDispose,
    .fixed  0x00000010#32 .envInit,
    .fixed  0x00000011#32 .envReadT,
    .fixed  0x00000012#32 .envReadP,
    .fixed  0x00000013#32 .envDispose,
    .fixed  0x00000020#32 .segInit,
    ⟨0xFFFE00FF#32, 0x00000021#32, fun idx f => .segShow idx (alignOf f)⟩,
    .fixed  0x00000022#32 .segDispose,
    .fixed  0x00000030#32 .disposeAll ]

/-- Whether the word selects the row. -/
def OpRow.selects (r : OpRow) (w : Word) : Bool := w &&& r.mask == r.pattern

/-- The instruction of the one row the word selects, if any (30_encoding.md R90). -/
def decode (w : Word) : Option Instr :=
  (opcodeTable.find? (fun r => r.selects w)).map (fun r => r.build (idxField w) (fField w))

/-- Why a word is illegal (30_encoding.md R98, its four kinds). -/
inductive IllegalWord where
  /-- `OP` is not one of the 14 opcodes. -/
  | unassignedOpcode
  /-- An `RSV` bit is set. -/
  | reservedBits
  /-- A class N word with `IDX` ≠ 0 or `F` ≠ 0. -/
  | classNOperand
  /-- A class L word with `F` = 1 and `IDX` ≠ 0. -/
  | allWithIndex
  deriving DecidableEq, Repr

/-- The class L opcodes. -/
def classL : List Byte := [0x01#8, 0x02#8, 0x03#8]

/-- The 14 opcodes of 30_encoding.md R93. -/
def assignedOpcodes : List Byte :=
  [0x00#8, 0x01#8, 0x02#8, 0x03#8, 0x04#8, 0x05#8, 0x10#8, 0x11#8, 0x12#8, 0x13#8, 0x20#8, 0x21#8, 0x22#8, 0x30#8]

/-- The first of 30_encoding.md R98's kinds that a word no row selects belongs to. -/
def illegalKind (w : Word) : IllegalWord :=
  if !assignedOpcodes.contains (opField w) then .unassignedOpcode
  else if rsvField w ≠ 0#15 then .reservedBits
  else if classL.contains (opField w) then .allWithIndex
  else .classNOperand

/-- Decoding with the rejection named: total on every word. -/
def decodeNamed (w : Word) : Except IllegalWord Instr :=
  match decode w with
  | some i => .ok i
  | none => .error (illegalKind w)

/-- The instruction the decoder reads from a word of `nbits` bits, numbered as opcode_table.json numbers them:
the one 32-bit word, with every bit at or above `nbits` zero. -/
def decodeTableWord (nbits w : Nat) : Option Instr := decode (BitVec.ofNat 32 (w % 2 ^ nbits))

/-- A command word from its fields, `RSV` = 0 (30_encoding.md R91). -/
def commandWord (op : Byte) (idx : Nat) (f : Bool) : Word :=
  op.zeroExtend 32 ||| (BitVec.ofNat 32 idx <<< 8) ||| (if f then 0x00010000#32 else 0#32)

/-- The word of a well-formed instruction (30_encoding.md R93, R100). -/
def encode : Instr → Word
  | .nop => commandWord 0x00#8 0 false
  | .ledSet i => commandWord 0x01#8 i false
  | .ledSetAll => commandWord 0x01#8 0 true
  | .ledOn i => commandWord 0x02#8 i false
  | .ledOnAll => commandWord 0x02#8 0 true
  | .ledOff i => commandWord 0x03#8 i false
  | .ledOffAll => commandWord 0x03#8 0 true
  | .ledFlush => commandWord 0x04#8 0 false
  | .ledDispose => commandWord 0x05#8 0 false
  | .envInit => commandWord 0x10#8 0 false
  | .envReadT => commandWord 0x11#8 0 false
  | .envReadP => commandWord 0x12#8 0 false
  | .envDispose => commandWord 0x13#8 0 false
  | .segInit => commandWord 0x20#8 0 false
  | .segShow n a => commandWord 0x21#8 n (a == .right)
  | .segDispose => commandWord 0x22#8 0 false
  | .disposeAll => commandWord 0x30#8 0 false

end Sys2Proof
end

