-- ==== Sys2Proof/Machine/Arith.lean ====
section
/-!
DEFINITION. The width and signedness functions of 00_scope.md R10 over unbounded integers, as 41_env_sensor.md R166
uses them: every wrap is written where the rule writes it, and nothing traps or saturates.
-/
namespace Sys2Proof.Machine

/-- `zext_N(v)`: v modulo 2^N, in [0, 2^N). -/
def zext (n : Nat) (v : Int) : Int := v % 2 ^ n

/-- `sext_N(v)`: v modulo 2^N, read as two's complement. -/
def sext (n : Nat) (v : Int) : Int := (BitVec.ofInt n v).toInt

/-- `s32(v)`. -/
def s32 (v : Int) : Int := sext 32 v

/-- `s64(v)`. -/
def s64 (v : Int) : Int := sext 64 v

/-- `asr(v, n)` = floor(v / 2^n). -/
def asr (v : Int) (n : Nat) : Int := v.fdiv (2 ^ n)

/-- `shl(v, n)` = v × 2^n, before any wrap. -/
def shl (v : Int) (n : Nat) : Int := v * 2 ^ n

/-- `tdiv(a, b)`, truncated toward zero; used with b ≠ 0 only. -/
def tdiv (a b : Int) : Int := a.tdiv b

/-- `clamp(v, lo, hi)`. -/
def clamp (v lo hi : Int) : Int := min (max v lo) hi

end Sys2Proof.Machine
end

