-- ==== Sys2Proof/Config.lean ====
section
/-!
DEFINITION. The implementation parameters of 00_scope.md R7 and the free values.
The functions over the parameters stand in Machine/Parameters.lean. A parameter the spec fixes is a number here; an OPEN parameter is a component of `Params`, whose value for the
machine after reset is the constant `Config.params`, which has no body; a bus answer is a free value (20_memory.md R66).
-/
namespace Sys2Proof

/-- `N_LEDS` = 7 (00_scope.md R7; 90_conflicts.md C4). -/
abbrev Config.nLeds : Nat := 7

/-- `START_PULSES` = 36 (00_scope.md R7; 40_led_strip.md R128). -/
abbrev Config.startPulses : Nat := 36

/-- `END_PULSES` = 32 (00_scope.md R7; 40_led_strip.md R129). -/
abbrev Config.endPulses : Nat := 32

/-- `BRIGHT_PREFIX` = 0xE0 (00_scope.md R7). -/
abbrev Config.brightPrefix : Byte := 0xE0#8

/-- `BRIGHT_MAX_LEVEL` = 31 (00_scope.md R7). -/
abbrev Config.brightMaxLevel : Nat := 31

/-- The three components of `ON_COLOR` = (0xFF, 0xFF, 0xFF), red, green, blue (00_scope.md R7; decision D12). -/
abbrev Config.onRed : Byte := 0xFF#8
abbrev Config.onGreen : Byte := 0xFF#8
abbrev Config.onBlue : Byte := 0xFF#8

/-- `CS_ACTIVE` = 0, active low (00_scope.md R7; decision D10). -/
abbrev Config.csActive : Bool := false

/-- `N_COEFF` = 12 (00_scope.md R7; 90_conflicts.md C1). -/
abbrev Config.nCoeff : Nat := 12

/-- `T_RES_DIV` = 5120 (00_scope.md R7). -/
abbrev Config.tResDiv : Nat := 5120

/-- `SEG_CELLS` = 4 (00_scope.md R7). -/
abbrev Config.segCells : Nat := 4

/-- The OPEN parameters of 00_scope.md R7, in a form in which every value is a configuration the spec admits
(log 9, DESIGN CHOICE, safe): `SEG_ADDR` is given by its distance from `ENV_ADDR`, so the two differ
(20_memory.md R87), and `CHARSET` by its mask for 0x20 and its other entries, so 0x20 has one (00_scope.md R8). -/
structure Params where
  /-- `ENV_ADDR`. -/
  envAddr : BusAddr
  /-- `SEG_ADDR` is `ENV_ADDR` + 1 + `segGap` modulo 128. -/
  segGap : Fin 127
  /-- `ENV_ID_REG`. -/
  envIdReg : Byte
  /-- `ENV_SIGNATURE`. -/
  envSignature : Byte
  /-- `ENV_CAL_REG[k]`, k = 0..11. -/
  envCalReg : Vector Byte 12
  /-- `ENV_CTRL_REG`. -/
  envCtrlReg : Byte
  /-- `ENV_CTRL_VALUE`. -/
  envCtrlValue : Byte
  /-- `ENV_PRESS_MSB_REG`. -/
  envPressMsbReg : Byte
  /-- `ENV_TEMP_MSB_REG`. -/
  envTempMsbReg : Byte
  /-- `SEG_CMD_SYSTEM`. -/
  segCmdSystem : Byte
  /-- `SEG_CMD_DISPLAY`. -/
  segCmdDisplay : Byte
  /-- `SEG_CMD_BRIGHT`. -/
  segCmdBright : Byte
  /-- `CHARSET(0x20)`, the space mask. -/
  spaceMask : Mask
  /-- The entries of `CHARSET` for other codes; the first entry for a code counts. -/
  charset : List (Byte × Mask)
  /-- `HBR_BASE`, where the host platform places the block (20_memory.md R86); no rule uses it. -/
  hbrBase : Nat
  /-- `T_PIN_MIN`, in any unit of time (70_reset_and_hazards.md R300); no rule uses it. -/
  tPinMin : Nat
  deriving DecidableEq, Repr, Inhabited

/-- The OPEN parameters as the spec's table lists them, before any check. -/
structure RawParams where
  envAddr : BusAddr
  segAddr : BusAddr
  envIdReg : Byte
  envSignature : Byte
  envCalReg : Vector Byte 12
  envCtrlReg : Byte
  envCtrlValue : Byte
  envPressMsbReg : Byte
  envTempMsbReg : Byte
  segCmdSystem : Byte
  segCmdDisplay : Byte
  segCmdBright : Byte
  charset : List (Byte × Mask)
  hbrBase : Nat
  tPinMin : Nat
  deriving DecidableEq, Repr, Inhabited

/-- The OPEN parameters of the machine after reset: a constant without a body, so no proof can see them
(log 8, DESIGN CHOICE, safe). -/
opaque Config.params : Params

/-- Free value: the n-th probe answer nothing outside has supplied (20_memory.md R66; log 2, DESIGN CHOICE, safe). -/
opaque Config.freeAck : Nat → Bool

/-- Free value: the n-th bus byte nothing outside has supplied (20_memory.md R66; log 2, DESIGN CHOICE, safe). -/
opaque Config.freeByte : Nat → Byte

end Sys2Proof
end

