-- ==== Sys2Proof/Machine/Parameters.lean ====
section
/-!
DEFINITION. What the rules read from the OPEN parameters, and which tables of parameters are refused
(00_scope.md R7, R8; 20_memory.md R87; 42_segment_display.md R216).
-/
namespace Sys2Proof

/-- `SEG_ADDR` (00_scope.md R7, 20_memory.md R87). -/
def Config.segAddr (p : Params) : BusAddr := p.envAddr + 1#7 + BitVec.ofNat 7 p.segGap.val

/-- `CHARSET` as the partial map of 42_segment_display.md R216. -/
def Config.charset (p : Params) (c : Byte) : Option Mask :=
  if c = 0x20#8 then some p.spaceMask else p.charset.lookup c

/-- The distance `SEG_ADDR` - `ENV_ADDR` - 1 modulo 128; it is 127 exactly when the two addresses are equal. -/
def Config.gapOf (r : RawParams) : Nat := (r.segAddr - r.envAddr - 1#7).toNat

/-- Reads a table of parameters, refusing one with `ENV_ADDR` = `SEG_ADDR` (20_memory.md R87) and one whose
`CHARSET` has no entry for 0x20 (00_scope.md R8). -/
def Config.build (r : RawParams) : Option Params :=
  match r.charset.lookup 0x20#8 with
  | none => none
  | some space =>
    if h : Config.gapOf r < 127 then
      some { envAddr := r.envAddr, segGap := ⟨Config.gapOf r, h⟩, envIdReg := r.envIdReg,
             envSignature := r.envSignature, envCalReg := r.envCalReg, envCtrlReg := r.envCtrlReg,
             envCtrlValue := r.envCtrlValue, envPressMsbReg := r.envPressMsbReg, envTempMsbReg := r.envTempMsbReg,
             segCmdSystem := r.segCmdSystem, segCmdDisplay := r.segCmdDisplay, segCmdBright := r.segCmdBright,
             spaceMask := space, charset := r.charset, hbrBase := r.hbrBase, tPinMin := r.tPinMin }
    else none

/-- The reference values of 00_scope.md R7 with a given `CHARSET`; the tests use them, the machine does not
(UNVERIFIED: the spec takes them from general knowledge). -/
def Config.reference (charset : List (Byte × Mask)) : RawParams :=
  { envAddr := 0x77#7, segAddr := 0x70#7, envIdReg := 0xD0#8, envSignature := 0x58#8,
    envCalReg := #v[0x88#8, 0x8A#8, 0x8C#8, 0x8E#8, 0x90#8, 0x92#8, 0x94#8, 0x96#8, 0x98#8, 0x9A#8, 0x9C#8, 0x9E#8],
    envCtrlReg := 0xF4#8, envCtrlValue := 0x27#8, envPressMsbReg := 0xF7#8, envTempMsbReg := 0xFA#8,
    segCmdSystem := 0x21#8, segCmdDisplay := 0x81#8, segCmdBright := 0xEF#8,
    charset := charset, hbrBase := 0, tPinMin := 0 }

end Sys2Proof
end

