-- ==== Sys2Proof/Machine/State.lean ====
section
/-!
DEFINITION. The state of HBR-PE as plain data, the reasons a step can stop, and the state after reset
(10_state.md; 20_memory.md R63, R64; 70_reset_and_hazards.md R290).
HBR-PE has no data memory and no program counter (20_memory.md, opening; 10_state.md R22), so State holds neither (log 11).
-/
namespace Sys2Proof.Machine

/-- Readiness of an engine (10_state.md R30). -/
inductive Readiness where
  | uninitialized
  | initializing
  | ready
  | failed
  | released
  deriving DecidableEq, Repr, Inhabited

/-- The three engines (00_scope.md R1). -/
inductive Engine where
  | led
  | env
  | seg
  deriving DecidableEq, Repr, Inhabited

/-- Completion codes (60_exceptions.md R260); the reserved codes 7 to 15 have no name, so none is ever produced. -/
inductive Code where
  | ok
  | deviceNotFound
  | signatureMismatch
  | notReady
  | invalidInput
  | arithGuard
  | illegalCommand
  deriving DecidableEq, Repr, Inhabited

/-- The LED-port lines (20_memory.md R63). -/
inductive Line where
  | data
  | clk
  | cs
  deriving DecidableEq, Repr, Inhabited

/-- What a line can be driven to; `z` is released (00_scope.md R11). -/
inductive Level where
  | low
  | high
  | z
  deriving DecidableEq, Repr, Inhabited

/-- One `PinWrite(line, level)` event of the pin trace (20_memory.md R63). -/
structure PinEvent where
  line : Line
  level : Level
  deriving DecidableEq, Repr, Inhabited

/-- The levels the lines hold (10_state.md R37). -/
structure Pins where
  data : Level
  clk : Level
  cs : Level
  deriving DecidableEq, Repr, Inhabited

/-- One transaction of the bus trace (20_memory.md R64), with what the device answered; the length n of a read is
the number of its bytes. -/
inductive BusEvent where
  | probe (addr : BusAddr) (ack : Bool)
  | read (addr : BusAddr) (reg : Byte) (bytes : List Byte)
  | write (addr : BusAddr) (bytes : List Byte)
  deriving DecidableEq, Repr, Inhabited

/-- What a bus device answered to the running command: an acknowledge or the bytes read. -/
inductive Answer where
  | ack (b : Bool)
  | bytes (bs : List Byte)
  deriving DecidableEq, Repr, Inhabited

/-- One entry of the LED array (10_state.md R33). -/
structure LedEntry where
  level : BitVec 5
  r : Byte
  g : Byte
  b : Byte
  deriving DecidableEq, Repr, Inhabited

/-- The command latch (10_state.md R38). `pos` is the index of the command's next external event (10_state.md R22).
`rx` is the model's own: the answers to the command's probes and reads so far, from which the updates that
10_state.md R39 says the sequencer builds are computed (log 5, DESIGN CHOICE, safe). -/
structure Latch where
  busy : Bool
  op : Word
  a0 : Word
  a1 : Word
  wt : Bool
  pos : Nat
  rx : List Answer
  deriving DecidableEq, Repr, Inhabited

/-- A host access: `MemRead(off, width)` or `MemWrite(off, width, v)`, widths in bytes (20_memory.md R60). -/
inductive HostAccess where
  | read (off : Byte) (width : Nat)
  | write (off : Byte) (width : Nat) (v : Word)
  deriving DecidableEq, Repr, Inhabited

/-- What happens next outside the sequencer, or that it is the sequencer's turn (20_memory.md R68; log 1). -/
inductive Turn where
  /-- The sequencer takes one step, if it is not idle. -/
  | sequencer
  /-- The host makes one access. -/
  | host (a : HostAccess)
  /-- The `wait` loop of 30_encoding.md R101: the sequencer runs while `BUSY` = 1, then one poll reads `STATUS` (log 14). -/
  | wait
  /-- The platform asserts reset (70_reset_and_hazards.md R290, R293). -/
  | reset
  /-- The host writes `v` to `STATUS` in the very step in which the sequencer takes its step (10_state.md R25; log 15). -/
  | clearDuring (v : Word)
  /-- An access by a host other than the one host (60_exceptions.md R273). -/
  | otherHost (a : HostAccess)
  deriving DecidableEq, Repr, Inhabited

/-- The state. Each field names its rule; the fields after `busTrace` are the model's own, not the spec's. -/
structure State where
  /-- `ARG0` (10_state.md R20, R21). -/
  arg0 : Word
  /-- `ARG1` (10_state.md R20, R21). -/
  arg1 : Word
  /-- `RESULT0` (10_state.md R20, R21). -/
  result0 : Word
  /-- `RESULT1` (10_state.md R20, R21). -/
  result1 : Word
  /-- `RESULT2` (10_state.md R20, R21). -/
  result2 : Word
  /-- `STATUS.CODE` (10_state.md R24). -/
  code : Code
  /-- The sticky flags `STATUS[14:8]`, bit k - 8 for `STATUS` bit k (10_state.md R24, R25). -/
  sticky : BitVec 7
  /-- `CTRL.WT` (10_state.md R26). -/
  ctrlWt : Bool
  /-- `LED_STATE` (10_state.md R28, R30). -/
  ledState : Readiness
  /-- `ENV_STATE` (10_state.md R28, R30). -/
  envState : Readiness
  /-- `SEG_STATE` (10_state.md R28, R30). -/
  segState : Readiness
  /-- The LED array (10_state.md R33). -/
  led : Vector LedEntry 7
  /-- The calibration coefficients as captured, 16 bits each (10_state.md R34; log 17). -/
  coef : Vector (BitVec 16) 12
  /-- `cal_valid` (10_state.md R35). -/
  calValid : Bool
  /-- The display frame (10_state.md R36). -/
  frame : Vector Mask 4
  /-- The LED-port line levels (10_state.md R37). -/
  pins : Pins
  /-- The command latch (10_state.md R38). -/
  latch : Latch
  /-- The pin trace since reset, oldest event first (20_memory.md R63). -/
  pinTrace : List PinEvent
  /-- The bus trace since reset, oldest transaction first (20_memory.md R64). -/
  busTrace : List BusEvent
  /-- The pin events emitted before the latest reset (70_reset_and_hazards.md R293; log 12). -/
  pinPast : List PinEvent
  /-- The bus transactions made before the latest reset (70_reset_and_hazards.md R293; log 12). -/
  busPast : List BusEvent
  /-- What happens next, in order; when it is empty the sequencer has every turn (log 1). -/
  script : List Turn
  /-- What the host's reads returned, oldest first: offset and value (70_reset_and_hazards.md R302; log 18). -/
  hostReads : List (Byte × Word)
  /-- Probe answers supplied from outside, next first (20_memory.md R66; log 2). -/
  ackTape : List Bool
  /-- Bus bytes supplied from outside, next first (20_memory.md R66; log 2). -/
  byteTape : List Byte
  /-- How many free probe answers have been taken: what `Config.freeAck` is applied to (log 3). -/
  ackDraws : Nat
  /-- How many free bus bytes have been taken: what `Config.freeByte` is applied to (log 3). -/
  byteDraws : Nat
  /-- The OPEN parameters (00_scope.md R7), which no step changes (log 8). -/
  params : Params
  deriving DecidableEq, Repr, Inhabited

/-- Why a step stops with a fault: never. The spec describes no trap and no fault that stops the machine
(60_exceptions.md R267: an error is a completion), so there is no constructor (log 21, safe). -/
inductive Fault where
  deriving DecidableEq, Repr

/-- Why a step is refused. -/
inductive Refusal where
  /-- Raised by `exec` only, for an instruction with no meaning yet; no arm raises it now. Safe. -/
  | notModelled (mnemonic : String)
  /-- Raised by a host access that is not aligned and 32 bits wide, with its offset and width in bytes: the spec
  says a model refuses it (20_memory.md R82; 93_implementation_defined.md I9; log 19). Safe. -/
  | hostAccess (off : Byte) (width : Nat)
  /-- Raised by an access of a second host: the spec says a model refuses it (60_exceptions.md R273;
  93_implementation_defined.md I22; log 19). Safe. -/
  | secondHost
  deriving DecidableEq, Repr

/-- The line levels of an idle LED port: DATA = 0, CLK = 0, CS = 1 - CS_ACTIVE (10_state.md R37, 40_led_strip.md R133). -/
def Pins.idle : Pins := ⟨.low, .low, if Config.csActive then .low else .high⟩

/-- The line levels after the port is released (10_state.md R37, 43_system.md R240). -/
def Pins.released : Pins := ⟨.z, .z, .z⟩

/-- An LED at reset: level 0, colour 0 (10_state.md R33). -/
def LedEntry.dark : LedEntry := ⟨0#5, 0#8, 0#8, 0#8⟩

/-- The command latch after reset: `busy` = 0; the other contents, which the spec leaves unspecified and
unobservable, are 0 (log 6, DESIGN CHOICE, unsafe). -/
def Latch.atReset : Latch := ⟨false, 0#32, 0#32, 0#32, false, 0, []⟩

/-- The machine with parameters `p` right after reset (70_reset_and_hazards.md R290). The coefficients, which the
spec leaves unspecified and unobservable, are 0 (log 7, DESIGN CHOICE, unsafe). -/
def State.resetWith (p : Params) : State :=
  { arg0 := 0#32, arg1 := 0#32, result0 := 0#32, result1 := 0#32, result2 := 0#32,
    code := .ok, sticky := 0#7, ctrlWt := false,
    ledState := .ready, envState := .uninitialized, segState := .uninitialized,
    led := Vector.replicate 7 LedEntry.dark, coef := Vector.replicate 12 0#16, calValid := false,
    frame := Vector.replicate 4 p.spaceMask, pins := Pins.idle, latch := Latch.atReset,
    pinTrace := [], busTrace := [], pinPast := [], busPast := [],
    script := [], hostReads := [], ackTape := [], byteTape := [], ackDraws := 0, byteDraws := 0, params := p }

/-- The machine right after reset (70_reset_and_hazards.md R290). -/
def State.reset : State := State.resetWith Config.params

end Sys2Proof.Machine
end

