-- ==== Sys2Proof/Machine/Flags.lean ====
section
/-!
DEFINITION. Completion codes, sticky flags and readiness as numbers, and the words of the status registers
(10_state.md R24, R25, R28, R30, R41; 60_exceptions.md R260, R261).
-/
namespace Sys2Proof.Machine

/-- The number of a completion code (60_exceptions.md R260). -/
def codeNumber : Code → BitVec 4
  | .ok => 0#4
  | .deviceNotFound => 1#4
  | .signatureMismatch => 2#4
  | .notReady => 3#4
  | .invalidInput => 4#4
  | .arithGuard => 5#4
  | .illegalCommand => 6#4

/-- The sticky flag a completion with the code sets, as `STATUS[14:8]` (60_exceptions.md R261). -/
def codeFlag : Code → BitVec 7
  | .ok => 0x00#7
  | .deviceNotFound => 0x01#7
  | .signatureMismatch => 0x02#7
  | .notReady => 0x04#7
  | .invalidInput => 0x08#7
  | .arithGuard => 0x10#7
  | .illegalCommand => 0x20#7

/-- `E_OVERRUN`, `STATUS` bit 14 (20_memory.md R71). -/
def overrunFlag : BitVec 7 := 0x40#7

/-- The sticky flags when, in one step, the host writes 1s at `clear` and the sequencer sets `set`: the set wins
(10_state.md R25). -/
def stickyAfter (clear set old : BitVec 7) : BitVec 7 := (old &&& ~~~clear) ||| set

/-- The encoding of readiness (10_state.md R30). -/
def readinessNumber : Readiness → BitVec 3
  | .uninitialized => 0#3
  | .initializing => 1#3
  | .ready => 2#3
  | .failed => 3#3
  | .released => 4#3

/-- The word read at `STATUS` (10_state.md R24). -/
def statusWord (s : State) : Word :=
  0#17 ++ s.sticky ++ codeNumber s.code ++ 0#3 ++ BitVec.ofBool s.latch.busy

/-- The word read at `CTRL` (10_state.md R26). -/
def ctrlWord (s : State) : Word := 0#31 ++ BitVec.ofBool s.ctrlWt

/-- The word read at `INFO` (10_state.md R27). -/
def infoWord : Word :=
  0#16 ++ BitVec.ofNat 4 Config.nCoeff ++ BitVec.ofNat 4 Config.segCells ++ BitVec.ofNat 8 Config.nLeds

/-- The word read at `ENG_STATE` (10_state.md R28). -/
def engStateWord (s : State) : Word :=
  0#21 ++ readinessNumber s.segState ++ 0#1 ++ readinessNumber s.envState ++ 0#1 ++ readinessNumber s.ledState

end Sys2Proof.Machine
end

