-- ==== Sys2Proof/Machine/Ops.lean ====
section
/-!
DEFINITION. The named operations over the state: readiness, command acceptance, the external events, the bus draws,
and the completion of a command, which is the spec's form of taking an exception (60_exceptions.md R260, R267).
There is no return from one (60_exceptions.md R268): the host clears the flags (HostPort.lean).
-/
namespace Sys2Proof.Machine

/-- An engine's readiness. -/
def readiness (e : Engine) (s : State) : Readiness :=
  match e with
  | .led => s.ledState
  | .env => s.envState
  | .seg => s.segState

/-- Sets an engine's readiness (10_state.md R30). -/
def setReadiness (e : Engine) (r : Readiness) (s : State) : State :=
  match e with
  | .led => { s with ledState := r }
  | .env => { s with envState := r }
  | .seg => { s with segState := r }

/-- Fills the command latch in one step (20_memory.md R70, 10_state.md R38). -/
def accept (w : Word) (s : State) : State :=
  { s with latch := { busy := true, op := w, a0 := s.arg0, a1 := s.arg1, wt := s.ctrlWt, pos := 0, rx := [] } }

/-- `issue(w)`: acceptance, or an overrun while a command runs (20_memory.md R70, R71). -/
def issue (w : Word) (s : State) : State :=
  if s.latch.busy then { s with sticky := stickyAfter 0#7 overrunFlag s.sticky } else accept w s

/-- `finish(code)`: the completion step, after the command's own updates have been committed (60_exceptions.md R260,
R261; 10_state.md R39): the code, its sticky flag and `busy` ← 0. The latch's other contents, unobservable from here
on, stay (log 28). -/
def finish (c : Code) (s : State) : State :=
  { s with code := c, sticky := stickyAfter 0#7 (codeFlag c) s.sticky, latch := { s.latch with busy := false } }

/-- Drives one line (20_memory.md R63). -/
def drive (e : PinEvent) (p : Pins) : Pins :=
  match e.line with
  | .data => { p with data := e.level }
  | .clk => { p with clk := e.level }
  | .cs => { p with cs := e.level }

/-- `PinWrite(line, level)`: one event of the pin trace, which sets the line even when its level does not change
(20_memory.md R63). -/
def emitPin (e : PinEvent) (s : State) : State :=
  { s with pins := drive e s.pins, pinTrace := s.pinTrace ++ [e], latch := { s.latch with pos := s.latch.pos + 1 } }

/-- The next probe answer: the next one supplied from outside, else a free value (20_memory.md R66; log 2). -/
def nextAck (s : State) : Bool :=
  match s.ackTape with
  | b :: _ => b
  | [] => Config.freeAck s.ackDraws

/-- The bus byte k places ahead: one supplied from outside, else a free value (20_memory.md R66; log 2). -/
def byteAhead (s : State) (k : Nat) : Byte :=
  match s.byteTape[k]? with
  | some b => b
  | none => Config.freeByte (s.byteDraws + (k - s.byteTape.length))

/-- The next n bus bytes, first byte first (20_memory.md R64). -/
def nextBytes (s : State) (n : Nat) : List Byte := (List.range n).map (byteAhead s)

/-- `BusProbe(a)`: one transaction, whose answer is a draw (20_memory.md R64, R66). -/
def emitProbe (a : BusAddr) (s : State) : State :=
  { s with
    busTrace := s.busTrace ++ [.probe a (nextAck s)]
    latch := { s.latch with pos := s.latch.pos + 1, rx := s.latch.rx ++ [.ack (nextAck s)] }
    ackTape := s.ackTape.drop 1
    ackDraws := s.ackDraws + (1 - s.ackTape.length) }

/-- `BusRead(a, reg, n)`: one transaction, whose n bytes are draws (20_memory.md R64, R65, R66). -/
def emitRead (a : BusAddr) (reg : Byte) (n : Nat) (s : State) : State :=
  { s with
    busTrace := s.busTrace ++ [.read a reg (nextBytes s n)]
    latch := { s.latch with pos := s.latch.pos + 1, rx := s.latch.rx ++ [.bytes (nextBytes s n)] }
    byteTape := s.byteTape.drop n
    byteDraws := s.byteDraws + (n - s.byteTape.length) }

/-- `BusWrite(a, bytes)`: one transaction (20_memory.md R64). -/
def emitWrite (a : BusAddr) (bytes : List Byte) (s : State) : State :=
  { s with busTrace := s.busTrace ++ [.write a bytes], latch := { s.latch with pos := s.latch.pos + 1 } }

/-- Writes the three RESULT registers (10_state.md R21, 41_env_sensor.md R169). -/
def setResults (r0 r1 r2 : Word) (s : State) : State := { s with result0 := r0, result1 := r1, result2 := r2 }

/-- The reset input (70_reset_and_hazards.md R290, R293): all state takes its reset value and a running command is
abandoned with nothing committed. What is outside the block stays: its parameters, the script, what the host has read, and the bus
answers still to come; the events already emitted stand, as the past of the two traces (log 12). -/
def resetInput (s : State) : State :=
  { State.resetWith s.params with
    pinPast := s.pinPast ++ s.pinTrace
    busPast := s.busPast ++ s.busTrace
    script := s.script
    hostReads := s.hostReads
    ackTape := s.ackTape
    byteTape := s.byteTape
    ackDraws := s.ackDraws
    byteDraws := s.byteDraws }

end Sys2Proof.Machine
end

