-- ==== Sys2Proof/Machine/Program.lean ====
section
/-!
DEFINITION. A command's rule as a program of external events (00_scope.md R11), and the one operation by which the
sequencer takes a step of it: one external event a step, and one completion step at the end (20_memory.md R68, R70).
-/
namespace Sys2Proof.Machine

/-- A command's rule, written as its pseudocode writes it. A program is not part of the state: at each step it is
built again from the committed state and the latch, which no event of the command changes (10_state.md R39), and is
followed past the events already emitted, taking their answers from the latch (log 5). -/
inductive Program where
  /-- Commit the command's updates and `finish(code)`, in one step (10_state.md R39). -/
  | done (code : Code) (commit : State → State)
  /-- The engine enters INITIALIZING, in the step that emits the next event (10_state.md R39; log 4). -/
  | initializing (e : Engine) (next : Program)
  /-- `PinWrite`. -/
  | pin (e : PinEvent) (next : Program)
  /-- `ack <- BusProbe(a)`. -/
  | probe (a : BusAddr) (next : Bool → Program)
  /-- `bytes <- BusRead(a, reg, n)`. -/
  | read (a : BusAddr) (reg : Byte) (n : Nat) (next : Vector Byte n → Program)
  /-- `BusWrite(a, bytes)`. -/
  | write (a : BusAddr) (bytes : List Byte) (next : Program)

/-- The step at the program's event number `pos`, where `rx` holds the answers to the probes and reads before it:
emit that event, or commit and complete when the program has no event there. -/
def advance : Program → Nat → List Answer → State → State
  | .done c commit, _, _, s => finish c (commit s)
  | .initializing e next, pos, rx, s => advance next pos rx (setReadiness e .initializing s)
  | .pin e next, pos, rx, s =>
    match pos with
    | 0 => emitPin e s
    | pos + 1 => advance next pos rx s
  | .probe a next, pos, rx, s =>
    match pos, rx with
    | pos + 1, .ack b :: rx => advance (next b) pos rx s
    | _, _ => emitProbe a s
  | .read a reg n next, pos, rx, s =>
    match pos, rx with
    | pos + 1, .bytes bs :: rx =>
      if h : bs.length = n then advance (next ⟨bs.toArray, by simp [h]⟩) pos rx s else emitRead a reg n s
    | _, _ => emitRead a reg n s
  | .write a bytes next, pos, rx, s =>
    match pos with
    | 0 => emitWrite a bytes s
    | pos + 1 => advance next pos rx s

/-- One sequencer step of a command whose rule is `p`. It always answers a next state: the spec gives every step of
every command an effect. -/
def stepProgram (p : Program) (s : State) : Host.Outcome State Fault Refusal :=
  .next (advance p s.latch.pos s.latch.rx s)

/-- A program that emits the pin events in order and goes on. -/
def emitPins (es : List PinEvent) (next : Program) : Program := es.foldr Program.pin next

end Sys2Proof.Machine
end

