-- ==== Sys2Proof/Machine/Env.lean ====
section
/-!
DEFINITION. The ENV commands: calibration capture, raw samples, fixed-point compensation
(41_env_sensor.md R160 to R173) and `env.dispose` (43_system.md R241).
The formulas are the spec's decision D18; the spec takes them from general knowledge (log 22).
-/
namespace Sys2Proof.Machine

/-- Whether coefficient k is unsigned: T1 and P1 (41_env_sensor.md R160). -/
def coefUnsigned (k : Fin 12) : Bool := k.val == 0 || k.val == 3

/-- The integer a captured 16-bit coefficient stands for (10_state.md R34, 41_env_sensor.md R160; log 17). -/
def coefValue (k : Fin 12) (raw : BitVec 16) : Int := if coefUnsigned k then (raw.toNat : Int) else raw.toInt

/-- Coefficient k as the formulas read it. -/
def coefInt (s : State) (k : Fin 12) : Int := coefValue k s.coef[k]

/-- A coefficient from its two bus bytes, little-endian (20_memory.md R78). -/
def coefOfBytes (b : Vector Byte 2) : BitVec 16 := b[1] ++ b[0]

/-- `raw20(msb, lsb, xlsb)` (41_env_sensor.md R161). -/
def raw20 (msb lsb xlsb : Byte) : BitVec 20 :=
  (msb.zeroExtend 20 <<< 12) ||| (lsb.zeroExtend 20 <<< 4) ||| ((xlsb >>> 4).zeroExtend 20)

/-- The sample of a 3-byte read, most significant byte first (20_memory.md R79, 41_env_sensor.md R171). -/
def sampleOf (b : Vector Byte 3) : BitVec 20 := raw20 b[0] b[1] b[2]

/-- `compT`: t_fine, every intermediate wrapped to 32 bits (41_env_sensor.md R162). -/
def compT (adcT T1 T2 T3 : Int) : Int :=
  let v1 := asr (s32 (s32 (asr adcT 3 - s32 (T1 * 2)) * T2)) 11
  let d := s32 (asr adcT 4 - T1)
  let v2 := asr (s32 (asr (s32 (d * d)) 12 * T3)) 14
  s32 (v1 + v2)

/-- The divisor of `compP`, the "first fixed-point denominator term", every intermediate wrapped to 64 bits
(41_env_sensor.md R164). -/
def compPDivisor (tf P1 P2 P3 : Int) : Int :=
  let v1 := s64 (tf - 128000)
  let v1 := s64 (asr (s64 (s64 (v1 * v1) * P3)) 8 + s64 (shl (s64 (v1 * P2)) 12))
  asr (s64 (s64 (shl 1 47 + v1) * P1)) 33

/-- The offset term v2 of `compP` (41_env_sensor.md R164). -/
def compPOffset (tf P4 P5 P6 : Int) : Int :=
  let v1 := s64 (tf - 128000)
  let v2 := s64 (s64 (v1 * v1) * P6)
  let v2 := s64 (v2 + s64 (shl (s64 (v1 * P5)) 17))
  s64 (v2 + s64 (shl P4 35))

/-- `compP`: the unsigned Q24.8 pressure, or none for GUARD when the divisor is 0 (41_env_sensor.md R164). -/
def compP (adcP tf P1 P2 P3 P4 P5 P6 P7 P8 P9 : Int) : Option Word :=
  let v1 := compPDivisor tf P1 P2 P3
  let v2 := compPOffset tf P4 P5 P6
  if v1 = 0 then none
  else
    let p := 1048576 - adcP
    let n := s64 (s64 (s64 (shl p 31) - v2) * 3125)
    let p := s64 (tdiv n v1)
    let v1 := asr (s64 (s64 (P9 * asr p 13) * asr p 13)) 25
    let v2 := asr (s64 (P8 * p)) 19
    let p := s64 (asr (s64 (s64 (p + v1) + v2)) 8 + shl P7 4)
    some (BitVec.ofInt 32 p)

/-- `compT` on the captured coefficients (41_env_sensor.md R172). -/
def tFineOf (s : State) (adcT : BitVec 20) : Int :=
  compT adcT.toNat (coefInt s 0) (coefInt s 1) (coefInt s 2)

/-- `compP` on the captured coefficients (41_env_sensor.md R173). -/
def pressureOf (s : State) (adcP : BitVec 20) (tf : Int) : Option Word :=
  compP adcP.toNat tf (coefInt s 3) (coefInt s 4) (coefInt s 5) (coefInt s 6) (coefInt s 7) (coefInt s 8)
    (coefInt s 9) (coefInt s 10) (coefInt s 11)

/-- The temperature in °C a host reads from RESULT0 of `env.readt`, an exact rational (41_env_sensor.md R163, R169). -/
def celsiusOf (result0 : Word) : Rat := (result0.toInt : Rat) / (Config.tResDiv : Rat)

/-- The pressure in hPa a host reads from RESULT0 of `env.readp`, an exact rational (41_env_sensor.md R165, R169). -/
def hectopascalOf (result0 : Word) : Rat := (result0.toNat : Rat) / 25600

/-- The coefficient reads for the indices listed, each a 2-byte read, building `coef'` (41_env_sensor.md R170). -/
def captureCoefs (p : Params) : List (Fin 12) → Vector (BitVec 16) 12 → (Vector (BitVec 16) 12 → Program) → Program
  | [], coef', next => next coef'
  | k :: ks, coef', next =>
    .read p.envAddr p.envCalReg[k] 2 fun b => captureCoefs p ks (coef'.set k (coefOfBytes b)) next

/-- The capture order k = 0..11 (41_env_sensor.md R170, decision D22). -/
def coefOrder : List (Fin 12) := [0, 1, 2, 3, 4, 5, 6, 7, 8, 9, 10, 11]

/-- What a successful `env.init` commits (41_env_sensor.md R170). -/
def envInitCommit (coef' : Vector (BitVec 16) 12) (u : State) : State :=
  { u with coef := coef', calValid := true, envState := .ready }

/-- `ENV_INIT` (41_env_sensor.md R170). While the command runs the engine is INITIALIZING, and the rule goes on. -/
def envInitProgram (s : State) : Program :=
  match s.envState with
  | .ready => .done .ok id
  | .failed | .released => .done .notReady id
  | .uninitialized | .initializing =>
    .initializing .env <| .probe s.params.envAddr fun ack =>
      if ack then
        .read s.params.envAddr s.params.envIdReg 1 fun id =>
          if id[0] = s.params.envSignature then
            captureCoefs s.params coefOrder s.coef fun coef' =>
              .write s.params.envAddr [s.params.envCtrlReg, s.params.envCtrlValue]
                (.done .ok (envInitCommit coef'))
          else .done .signatureMismatch (setReadiness .env .failed)
      else .done .deviceNotFound (setReadiness .env .failed)

/-- `read_raw(reg)`: one 3-byte read (41_env_sensor.md R171). -/
def readRaw (p : Params) (reg : Byte) (next : BitVec 20 → Program) : Program :=
  .read p.envAddr reg 3 fun b => next (sampleOf b)

/-- `zext_32(t_fine)` as RESULT0 or RESULT2 hold it (41_env_sensor.md R169). -/
def tFineWord (tf : Int) : Word := BitVec.ofInt 32 tf

/-- A raw sample as RESULT1 holds it: bits 31:20 = 0 (41_env_sensor.md R169). -/
def sampleWord (adc : BitVec 20) : Word := adc.zeroExtend 32

/-- `ENV_READ_T` (41_env_sensor.md R172). -/
def envReadTProgram (s : State) : Program :=
  if s.envState = .ready then
    readRaw s.params s.params.envTempMsbReg fun adcT =>
      .done .ok (setResults (tFineWord (tFineOf s adcT)) (sampleWord adcT) (tFineWord (tFineOf s adcT)))
  else .done .notReady (setResults 0#32 0#32 0#32)

/-- `ENV_READ_P` (41_env_sensor.md R173). -/
def envReadPProgram (s : State) : Program :=
  if s.envState = .ready then
    readRaw s.params s.params.envTempMsbReg fun adcT =>
      readRaw s.params s.params.envPressMsbReg fun adcP =>
        match pressureOf s adcP (tFineOf s adcT) with
        | none => .done .arithGuard (setResults 0#32 (sampleWord adcP) (tFineWord (tFineOf s adcT)))
        | some p32 => .done .ok (setResults p32 (sampleWord adcP) (tFineWord (tFineOf s adcT)))
  else .done .notReady (setResults 0#32 0#32 0#32)

/-- What `env.dispose`'s body commits (43_system.md R241). -/
def envDisposeCommit (u : State) : State := { u with calValid := false, envState := .released }

/-- `ENV_DISPOSE` (43_system.md R241). -/
def envDisposeProgram (s : State) : Program :=
  if s.envState = .released then .done .notReady id else .done .ok envDisposeCommit

/-- `env.init` (41_env_sensor.md R170). -/
def execEnvInit (s : State) : Host.Outcome State Fault Refusal := stepProgram (envInitProgram s) s

/-- `env.readt` (41_env_sensor.md R172). -/
def execEnvReadT (s : State) : Host.Outcome State Fault Refusal := stepProgram (envReadTProgram s) s

/-- `env.readp` (41_env_sensor.md R173). -/
def execEnvReadP (s : State) : Host.Outcome State Fault Refusal := stepProgram (envReadPProgram s) s

/-- `env.dispose` (43_system.md R241). -/
def execEnvDispose (s : State) : Host.Outcome State Fault Refusal := stepProgram (envDisposeProgram s) s

end Sys2Proof.Machine
end

