-- ==== Sys2Proof/Machine/LedPort.lean ====
section
/-!
DEFINITION. The LED pin port: the exact event sequence of a flush (40_led_strip.md R127 to R130), the clocked bit
stream of a pin trace (20_memory.md R63) and what the strip's receiver takes from it (40_led_strip.md R132).
-/
namespace Sys2Proof.Machine

/-- `Pulse()` (00_scope.md R11). -/
def pulse : List PinEvent := [⟨.clk, .high⟩, ⟨.clk, .low⟩]

/-- `repeat n times: Pulse()`. -/
def pulses (n : Nat) : List PinEvent := (List.replicate n pulse).flatten

/-- The level that carries a bit. -/
def levelOf (b : Bool) : Level := if b then .high else .low

/-- The bits of a byte, most significant first (20_memory.md R80). -/
def bitsMsbFirst (b : Byte) : List Bool :=
  [b.getLsbD 7, b.getLsbD 6, b.getLsbD 5, b.getLsbD 4, b.getLsbD 3, b.getLsbD 2, b.getLsbD 1, b.getLsbD 0]

/-- One data bit: set DATA, then pulse CLK (40_led_strip.md R129). -/
def sendBit (b : Bool) : List PinEvent := ⟨.data, levelOf b⟩ :: pulse

/-- One byte, most significant bit first. -/
def sendByte (b : Byte) : List PinEvent := (bitsMsbFirst b).flatMap sendBit

/-- The brightness byte of a level (40_led_strip.md R120). -/
def brightnessByte (level : BitVec 5) : Byte := Config.brightPrefix ||| level.zeroExtend 8

/-- The four bytes sent for an LED: brightness, blue, green, red (20_memory.md R80). -/
def ledBytes (e : LedEntry) : List Byte := [brightnessByte e.level, e.b, e.g, e.r]

/-- The events of one LED's frame (40_led_strip.md R129). -/
def sendLed (e : LedEntry) : List PinEvent := (ledBytes e).flatMap sendByte

/-- CS driven to `CS_ACTIVE`, and to 1 - `CS_ACTIVE` (40_led_strip.md R130). -/
def csAssert : PinEvent := ⟨.cs, levelOf Config.csActive⟩
def csRelease : PinEvent := ⟨.cs, levelOf (!Config.csActive)⟩

/-- `flush(arr)`: the exact pin-event sequence (40_led_strip.md R127). -/
def flushEvents (arr : Vector LedEntry 7) : List PinEvent :=
  [csAssert, ⟨.data, .low⟩] ++ pulses Config.startPulses
    ++ arr.toList.flatMap sendLed
    ++ [⟨.data, .low⟩] ++ pulses Config.endPulses ++ [csRelease]

/-- The three Z writes that release the lines (43_system.md R240). -/
def releaseEvents : List PinEvent := [⟨.data, .z⟩, ⟨.clk, .z⟩, ⟨.cs, .z⟩]

/-- The levels after a stretch of pin trace. -/
def pinsAfter (es : List PinEvent) (p : Pins) : Pins := es.foldl (fun p e => drive e p) p

/-- The clocked bit stream of a stretch of pin trace that starts with the lines at `p`: the level DATA holds at each
rising edge of CLK, in order (20_memory.md R63). -/
def clockedBits : Pins → List PinEvent → List Level
  | _, [] => []
  | p, e :: es =>
    if e = ⟨.clk, .high⟩ ∧ p.clk = .low then p.data :: clockedBits (drive e p) es
    else clockedBits (drive e p) es

/-- `stream(arr)` (40_led_strip.md R131). -/
def streamOf (arr : Vector LedEntry 7) : List Level :=
  List.replicate Config.startPulses .low
    ++ arr.toList.flatMap (fun e => (ledBytes e).flatMap (fun b => (bitsMsbFirst b).map levelOf))
    ++ List.replicate Config.endPulses .low

/-- A byte from eight levels, most significant first. -/
def byteOfLevels (ls : List Level) : Byte :=
  ls.foldl (fun b l => (b <<< 1) ||| (if l = .high then 1#8 else 0#8)) 0#8

/-- What the receiver takes for physical LED i from the clocked bits of a complete flush: group i after the first
`START_PULSES` bits, as brightness byte, blue, green, red (40_led_strip.md R132). -/
def receiverGroup (bits : List Level) (i : Nat) : Byte × Byte × Byte × Byte :=
  let g := (bits.drop (Config.startPulses + 32 * i)).take 32
  (byteOfLevels (g.take 8), byteOfLevels ((g.drop 8).take 8), byteOfLevels ((g.drop 16).take 8), byteOfLevels ((g.drop 24).take 8))

end Sys2Proof.Machine
end

