-- ==== Sys2Proof/Machine/Operands.lean ====
section
/-!
DEFINITION. The operand forms of 30_encoding.md R94 to R97: colour, brightness, text and target.
-/
namespace Sys2Proof.Machine

/-- The red, green and blue bytes of a colour operand (30_encoding.md R94). -/
def redOf (a0 : Word) : Byte := a0.extractLsb' 16 8
def greenOf (a0 : Word) : Byte := a0.extractLsb' 8 8
def blueOf (a0 : Word) : Byte := a0.extractLsb' 0 8

/-- `quant(a1)`: the 5-bit level of a signed Q16.16 brightness operand (30_encoding.md R95, 40_led_strip.md R120). -/
def quant (a1 : Word) : BitVec 5 :=
  BitVec.ofInt 5 (asr (31 * clamp a1.toInt 0 65536) 16)

/-- Character j of a text operand (30_encoding.md R96). -/
def textChar (a0 : Word) (j : Nat) : Byte := a0.extractLsb' (8 * j) 8

/-- The target operand of class L: `F` = 0 with `IDX`, or `F` = 1 (30_encoding.md R97). -/
inductive Target where
  | single (idx : Nat)
  | all
  deriving DecidableEq, Repr

/-- `targets(idx, f)`: the LEDs selected, or none for an index beyond the strip (40_led_strip.md R121). -/
def targets : Target → Option (List Nat)
  | .all => some (List.range Config.nLeds)
  | .single idx => if idx ≥ Config.nLeds then none else some [idx]

/-- `enc(c)`: the mask of a character code, with the space fallback (42_segment_display.md R214). -/
def enc (p : Params) (c : Byte) : Mask := (Config.charset p c).getD p.spaceMask

/-- The first cell of a text of n ≤ 4 characters (42_segment_display.md R215). -/
def textOffset (n : Nat) (a : Align) : Nat :=
  match a with
  | .right => Config.segCells - n
  | .left => 0

/-- The four cells of a text of n ≤ 4 characters: character j in cell offset + j, space elsewhere
(42_segment_display.md R211, R215). -/
def textCells (p : Params) (n : Nat) (a : Align) (a0 : Word) : Vector Mask 4 :=
  Vector.ofFn fun c =>
    if textOffset n a ≤ c.val ∧ c.val < textOffset n a + n then enc p (textChar a0 (c.val - textOffset n a))
    else enc p 0x20#8

/-- The all-space frame (42_segment_display.md R211, 43_system.md R242). -/
def blankCells (p : Params) : Vector Mask 4 := Vector.replicate 4 (enc p 0x20#8)

end Sys2Proof.Machine
end

