-- ==== Sys2Proof/Machine/Led.lean ====
section
/-!
DEFINITION. The LED commands (40_led_strip.md R122 to R126) and `led.dispose` (43_system.md R240).
-/
namespace Sys2Proof.Machine

/-- The LED array with the entries of the target set changed (40_led_strip.md R122 to R124). -/
def updateLeds (T : List Nat) (f : LedEntry → LedEntry) (arr : Vector LedEntry 7) : Vector LedEntry 7 :=
  Vector.ofFn fun i => if i.val ∈ T then f arr[i] else arr[i]

/-- What `led.set` stores (40_led_strip.md R122). -/
def setEntry (a0 a1 : Word) (_ : LedEntry) : LedEntry := ⟨quant a1, redOf a0, greenOf a0, blueOf a0⟩

/-- What `led.on` stores: the level is kept (40_led_strip.md R123). -/
def onEntry (e : LedEntry) : LedEntry := { e with r := Config.onRed, g := Config.onGreen, b := Config.onBlue }

/-- What `led.off` stores: the level is kept (40_led_strip.md R124). -/
def offEntry (e : LedEntry) : LedEntry := { e with r := 0#8, g := 0#8, b := 0#8 }

/-- Every LED off, levels kept (43_system.md R240). -/
def allOff (arr : Vector LedEntry 7) : Vector LedEntry 7 := updateLeds (List.range Config.nLeds) offEntry arr

/-- The rule shared by `led.set`, `led.on` and `led.off`: readiness, target, update, flush of the updated array when
the latched `wt` = 1, commit (40_led_strip.md R122 to R124, R126). -/
def changeLeds (t : Target) (f : LedEntry → LedEntry) (s : State) : Program :=
  if s.ledState = .ready then
    match targets t with
    | none => .done .invalidInput id
    | some T =>
      emitPins (if s.latch.wt then flushEvents (updateLeds T f s.led) else [])
        (.done .ok fun u => { u with led := updateLeds T f s.led })
  else .done .notReady id

/-- `LED_SET` (40_led_strip.md R122). -/
def ledSetProgram (t : Target) (s : State) : Program := changeLeds t (setEntry s.latch.a0 s.latch.a1) s

/-- `LED_ON` (40_led_strip.md R123). -/
def ledOnProgram (t : Target) (s : State) : Program := changeLeds t onEntry s

/-- `LED_OFF` (40_led_strip.md R124). -/
def ledOffProgram (t : Target) (s : State) : Program := changeLeds t offEntry s

/-- `LED_FLUSH` (40_led_strip.md R125). -/
def ledFlushProgram (s : State) : Program :=
  if s.ledState = .ready then emitPins (flushEvents s.led) (.done .ok id) else .done .notReady id

/-- The events of `led.dispose`'s body: the off-frame, then the release of the lines (43_system.md R240). -/
def ledDisposeEvents (s : State) : List PinEvent := flushEvents (allOff s.led) ++ releaseEvents

/-- What `led.dispose`'s body commits, with the array it started from (43_system.md R240). -/
def ledDisposeCommit (arr : Vector LedEntry 7) (u : State) : State := { u with led := allOff arr, ledState := .released }

/-- `LED_DISPOSE` (43_system.md R240). -/
def ledDisposeProgram (s : State) : Program :=
  if s.ledState = .ready then emitPins (ledDisposeEvents s) (.done .ok (ledDisposeCommit s.led))
  else .done .notReady id

/-- `led.set i` (40_led_strip.md R122). -/
def execLedSet (idx : Nat) (s : State) : Host.Outcome State Fault Refusal :=
  stepProgram (ledSetProgram (.single idx) s) s

/-- `led.set.all` (40_led_strip.md R122). -/
def execLedSetAll (s : State) : Host.Outcome State Fault Refusal := stepProgram (ledSetProgram .all s) s

/-- `led.on i` (40_led_strip.md R123). -/
def execLedOn (idx : Nat) (s : State) : Host.Outcome State Fault Refusal :=
  stepProgram (ledOnProgram (.single idx) s) s

/-- `led.on.all` (40_led_strip.md R123). -/
def execLedOnAll (s : State) : Host.Outcome State Fault Refusal := stepProgram (ledOnProgram .all s) s

/-- `led.off i` (40_led_strip.md R124). -/
def execLedOff (idx : Nat) (s : State) : Host.Outcome State Fault Refusal :=
  stepProgram (ledOffProgram (.single idx) s) s

/-- `led.off.all` (40_led_strip.md R124). -/
def execLedOffAll (s : State) : Host.Outcome State Fault Refusal := stepProgram (ledOffProgram .all s) s

/-- `led.flush` (40_led_strip.md R125). -/
def execLedFlush (s : State) : Host.Outcome State Fault Refusal := stepProgram (ledFlushProgram s) s

/-- `led.dispose` (43_system.md R240). -/
def execLedDispose (s : State) : Host.Outcome State Fault Refusal := stepProgram (ledDisposeProgram s) s

end Sys2Proof.Machine
end

