-- ==== Sys2Proof/Machine/Seg.lean ====
section
/-!
DEFINITION. The SEG commands (42_segment_display.md R210 to R216) and `seg.dispose` (43_system.md R242).
-/
namespace Sys2Proof.Machine

/-- A cell on the bus, low byte first (20_memory.md R81). -/
def cellBytes (m : Mask) : List Byte := [m.extractLsb' 0 8, m.extractLsb' 8 8]

/-- The nine bytes of a frame write: the address pointer byte, then the cells in order (42_segment_display.md R213). -/
def frameBytes (cells : Vector Mask 4) : List Byte := 0x00#8 :: cells.toList.flatMap cellBytes

/-- `frame_write(cells)`: exactly one transaction (42_segment_display.md R213). -/
def frameWrite (p : Params) (cells : Vector Mask 4) (next : Program) : Program :=
  .write (Config.segAddr p) (frameBytes cells) next

/-- `SEG_INIT` (42_segment_display.md R210). While the command runs the engine is INITIALIZING, and the rule goes on. -/
def segInitProgram (s : State) : Program :=
  match s.segState with
  | .ready => .done .ok id
  | .failed | .released => .done .notReady id
  | .uninitialized | .initializing =>
    .initializing .seg <| .probe (Config.segAddr s.params) fun ack =>
      if ack then
        .write (Config.segAddr s.params) [s.params.segCmdSystem] <|
        .write (Config.segAddr s.params) [s.params.segCmdDisplay] <|
        .write (Config.segAddr s.params) [s.params.segCmdBright] <|
        .done .ok (setReadiness .seg .ready)
      else .done .deviceNotFound (setReadiness .seg .failed)

/-- `SEG_SHOW` (42_segment_display.md R211, R212). -/
def segShowProgram (n : Nat) (a : Align) (s : State) : Program :=
  if s.segState = .ready then
    if n > Config.segCells then .done .invalidInput id
    else
      frameWrite s.params (textCells s.params n a s.latch.a0)
        (.done .ok fun u => { u with frame := textCells s.params n a s.latch.a0 })
  else .done .notReady id

/-- What `seg.dispose`'s body commits, with the readiness it started from (43_system.md R242). -/
def segDisposeCommit (was : Readiness) (u : State) : State :=
  { u with frame := if was = .ready then blankCells u.params else u.frame, segState := .released }

/-- The bus part of `seg.dispose`'s body: the blank frame, only when the display is READY (43_system.md R242). -/
def segDisposeEvents (s : State) (next : Program) : Program :=
  if s.segState = .ready then frameWrite s.params (blankCells s.params) next else next

/-- `SEG_DISPOSE` (43_system.md R242). -/
def segDisposeProgram (s : State) : Program :=
  if s.segState = .released then .done .notReady id
  else segDisposeEvents s (.done .ok (segDisposeCommit s.segState))

/-- `seg.init` (42_segment_display.md R210). -/
def execSegInit (s : State) : Host.Outcome State Fault Refusal := stepProgram (segInitProgram s) s

/-- `seg.show n, l|r` (42_segment_display.md R211). -/
def execSegShow (n : Nat) (align : Align) (s : State) : Host.Outcome State Fault Refusal :=
  stepProgram (segShowProgram n align s) s

/-- `seg.dispose` (43_system.md R242). -/
def execSegDispose (s : State) : Host.Outcome State Fault Refusal := stepProgram (segDisposeProgram s) s

end Sys2Proof.Machine
end

