-- ==== Sys2Proof/Machine/System.lean ====
section
/-!
DEFINITION. `nop` (43_system.md R243) and `dispose.all` (43_system.md R244).
-/
namespace Sys2Proof.Machine

/-- `NOP` (43_system.md R243). -/
def nopProgram (_ : State) : Program := .done .ok id

/-- What `dispose.all` commits, from the state it started in: the bodies of the engines not RELEASED, in the order
LED, ENV, SEG (43_system.md R244). -/
def disposeAllCommit (s u : State) : State :=
  let u := if s.ledState = .released then u else ledDisposeCommit s.led u
  let u := if s.envState = .released then u else envDisposeCommit u
  if s.segState = .released then u else segDisposeCommit s.segState u

/-- `DISPOSE_ALL` (43_system.md R244). -/
def disposeAllProgram (s : State) : Program :=
  emitPins (if s.ledState = .released then [] else ledDisposeEvents s)
    (segDisposeEvents s (.done .ok (disposeAllCommit s)))

/-- `nop` (43_system.md R243). -/
def execNop (s : State) : Host.Outcome State Fault Refusal := stepProgram (nopProgram s) s

/-- `dispose.all` (43_system.md R244). -/
def execDisposeAll (s : State) : Host.Outcome State Fault Refusal := stepProgram (disposeAllProgram s) s

end Sys2Proof.Machine
end

