-- ==== Sys2Proof/Machine/Dispatch.lean ====
section
/-!
DEFINITION. The dispatch of a decoded command to its meaning: one sequencer step of it.
-/
namespace Sys2Proof.Machine

def exec (i : Instr) (s : State) : Host.Outcome State Fault Refusal :=
  match i with
  | .nop => Sys2Proof.Machine.execNop s
  | .ledSet idx => Sys2Proof.Machine.execLedSet idx s
  | .ledSetAll => Sys2Proof.Machine.execLedSetAll s
  | .ledOn idx => Sys2Proof.Machine.execLedOn idx s
  | .ledOnAll => Sys2Proof.Machine.execLedOnAll s
  | .ledOff idx => Sys2Proof.Machine.execLedOff idx s
  | .ledOffAll => Sys2Proof.Machine.execLedOffAll s
  | .ledFlush => Sys2Proof.Machine.execLedFlush s
  | .ledDispose => Sys2Proof.Machine.execLedDispose s
  | .envInit => Sys2Proof.Machine.execEnvInit s
  | .envReadT => Sys2Proof.Machine.execEnvReadT s
  | .envReadP => Sys2Proof.Machine.execEnvReadP s
  | .envDispose => Sys2Proof.Machine.execEnvDispose s
  | .segInit => Sys2Proof.Machine.execSegInit s
  | .segShow n align => Sys2Proof.Machine.execSegShow n align s
  | .segDispose => Sys2Proof.Machine.execSegDispose s
  | .disposeAll => Sys2Proof.Machine.execDisposeAll s

end Sys2Proof.Machine
end

