-- ==== Sys2Proof/Machine/HostPort.lean ====
section
/-!
DEFINITION. The host register block: the one read and the one write operation over its 256 byte offsets
(10_state.md R20 to R32; 20_memory.md R60 to R62, R82).
-/
namespace Sys2Proof.Machine

/-- The word read at `LED[i]` (10_state.md R29). -/
def ledWord (e : LedEntry) : Word := brightnessByte e.level ++ e.r ++ e.g ++ e.b

/-- The byte offset of `LED[i]` (10_state.md R20). -/
def ledOffset (i : Nat) : Nat := 0x40 + 4 * i

/-- The register at an aligned byte offset, as a host read returns it (10_state.md R20 to R32; 20_memory.md R62).
`CMD` and the reserved offsets read 0. -/
def hostReg (s : State) (off : Byte) : Word :=
  match off.toNat with
  | 0x04 => s.arg0
  | 0x08 => s.arg1
  | 0x0C => statusWord s
  | 0x10 => s.result0
  | 0x14 => s.result1
  | 0x18 => s.result2
  | 0x1C => ctrlWord s
  | 0x20 => infoWord
  | 0x24 => engStateWord s
  | 0x28 => s.frame[1] ++ s.frame[0]
  | 0x2C => s.frame[3] ++ s.frame[2]
  | 0x40 => ledWord s.led[0]
  | 0x44 => ledWord s.led[1]
  | 0x48 => ledWord s.led[2]
  | 0x4C => ledWord s.led[3]
  | 0x50 => ledWord s.led[4]
  | 0x54 => ledWord s.led[5]
  | 0x58 => ledWord s.led[6]
  | _ => 0#32

/-- `MemWrite(off, 4, v)` at an aligned offset (20_memory.md R61; 10_state.md R25, R26, R32). -/
def hostWrite (off : Byte) (v : Word) (s : State) : State :=
  match off.toNat with
  | 0x00 => issue v s
  | 0x04 => { s with arg0 := v }
  | 0x08 => { s with arg1 := v }
  | 0x0C => { s with sticky := stickyAfter (v.extractLsb' 8 7) 0#7 s.sticky }
  | 0x1C => { s with ctrlWt := v.getLsbD 0 }
  | _ => s

/-- Whether an access is one the block defines: 32 bits wide at an offset that is a multiple of 4 (20_memory.md R82). -/
def accessDefined (off : Byte) (width : Nat) : Bool := width == 4 && off.toNat % 4 == 0

/-- One host access, one atomic step (20_memory.md R60, R69); an access the block does not define is refused
(20_memory.md R82). A read changes nothing in the block; its value is recorded as the host's (log 18). -/
def hostAccess (a : HostAccess) (s : State) : Host.Outcome State Fault Refusal :=
  match a with
  | .read off width =>
    if accessDefined off width then .next { s with hostReads := s.hostReads ++ [(off, hostReg s off)] }
    else .refused (.hostAccess off width)
  | .write off width v =>
    if accessDefined off width then .next (hostWrite off v s) else .refused (.hostAccess off width)

/-- Where an offset of the block lies in the host's own address space (20_memory.md R86). -/
def hostAddress (p : Params) (off : Byte) : Nat := p.hbrBase + off.toNat

/-- The offset a host address reaches, if it lies in the block (20_memory.md R60, R86). -/
def blockOffset (p : Params) (addr : Nat) : Option Byte :=
  if p.hbrBase ≤ addr ∧ addr < p.hbrBase + 256 then some (BitVec.ofNat 8 (addr - p.hbrBase)) else none

end Sys2Proof.Machine
end

