-- ==== Sys2Proof/Machine/Agents.lean ====
section
/-!
DEFINITION. The two agents that step, and which of them moves (00_scope.md R6, 20_memory.md R68; log 1).
-/
namespace Sys2Proof.Machine

/-- The sequencer's step: none while idle; else one step of the command decoded from the latch, or, for a word that
decodes to no command, the completion ILLEGAL_COMMAND (30_encoding.md R90, 60_exceptions.md R262, 20_memory.md R68). -/
def sequencerTurn (s : State) : Host.Outcome State Fault Refusal :=
  if s.latch.busy then
    match decode s.latch.op with
    | some i => exec i s
    | none => .next (finish .illegalCommand s)
  else .next s

/-- The step that the head of the script names; with an empty script the sequencer has the turn. -/
def nextTurn (s : State) : Host.Outcome State Fault Refusal :=
  match s.script with
  | [] => sequencerTurn s
  | .sequencer :: rest => sequencerTurn { s with script := rest }
  | .host a :: rest => hostAccess a { s with script := rest }
  | .wait :: rest => if s.latch.busy then sequencerTurn s else hostAccess (.read 0x0C#8 4) { s with script := rest }
  | .reset :: rest => .next (resetInput { s with script := rest })
  | .clearDuring v :: rest => sequencerTurn (hostWrite 0x0C#8 v { s with script := rest })
  | .otherHost _ :: _ => .refused .secondHost

/-- The command word placed where the sequencer takes its next command: accepted into the latch, as a host write to
`CMD` with `BUSY` = 0 leaves it, with the turn given to the sequencer (20_memory.md R70; log 16). -/
def placeCommand (w : Word) (s : State) : State := { accept w s with script := [] }

end Sys2Proof.Machine
end

