-- ==== Sys2Proof/Machine/HostProgram.lean ====
section
/-!
DEFINITION. Host programs: the statements of 30_encoding.md R100, the pseudo-instructions of R101, their expansion to
host accesses, and the reading of one line of source text (log 27). This is the host's side of the interface, not the block's.
-/
namespace Sys2Proof.Machine

/-- One statement of a host program (30_encoding.md R100, R101). -/
inductive Stmt where
  /-- `wr REG, imm`, with the register's offset. -/
  | wr (off : Byte) (imm : Word)
  /-- `rd REG`. -/
  | rd (off : Byte)
  /-- A command mnemonic with its operands. -/
  | command (i : Instr)
  /-- `wait`. -/
  | wait
  /-- `led.rgb i, c, q`. -/
  | ledRgb (idx : Nat) (c q : Word)
  /-- `led.rgb.all c, q`. -/
  | ledRgbAll (c q : Word)
  /-- `seg.text "s", a`. -/
  | segText (codes : List Byte) (a : Align)
  /-- `wt.on` and `wt.off`. -/
  | wt (on : Bool)
  /-- `clr`. -/
  | clr
  deriving DecidableEq, Repr

/-- `pack(s)`: the first four codes, first code in the low byte (30_encoding.md R101). -/
def packText (codes : List Byte) : Word :=
  (codes.take 4).foldr (fun c w => (w <<< 8) ||| c.zeroExtend 32) 0#32

/-- A host write of one word. -/
def wrTurn (off : Byte) (v : Word) : Turn := .host (.write off 4 v)

/-- A command statement is exactly `wr CMD, word` (30_encoding.md R100); an operand beyond 255 is refused. -/
def commandTurns (i : Instr) : Option (List Turn) :=
  if i.wellFormed then some [wrTurn 0x00#8 (encode i)] else none

/-- The host's accesses for a statement, in order; none where an assembler refuses it (30_encoding.md R100, R101). -/
def expand : Stmt → Option (List Turn)
  | .wr off imm => some [wrTurn off imm]
  | .rd off => some [.host (.read off 4)]
  | .command i => commandTurns i
  | .wait => some [.wait]
  | .ledRgb idx c q => (commandTurns (.ledSet idx)).map ([wrTurn 0x04#8 c, wrTurn 0x08#8 q] ++ ·)
  | .ledRgbAll c q => (commandTurns .ledSetAll).map ([wrTurn 0x04#8 c, wrTurn 0x08#8 q] ++ ·)
  | .segText codes a => (commandTurns (.segShow codes.length a)).map ([wrTurn 0x04#8 (packText codes)] ++ ·)
  | .wt on => some [wrTurn 0x1C#8 (if on then 1#32 else 0#32)]
  | .clr => some [wrTurn 0x0C#8 0x00007F00#32]

/-- The host's accesses of a whole program, in program order. -/
def expandAll : List Stmt → Option (List Turn)
  | [] => some []
  | st :: rest =>
    match expand st, expandAll rest with
    | some ts, some us => some (ts ++ us)
    | _, _ => none

/-- A pending token, if it has characters. -/
def flushToken (cur : List Char) : List (List Char) := if cur.isEmpty then [] else [cur.reverse]

/-- The tokens of a line: words, commas and quoted texts (with their quotes); `;` starts a comment (30_encoding.md R100).
R100 leaves open whether a `;` inside a quoted text does; the model takes it, like a comma or a blank there, as a
character of the text (log 27, DESIGN CHOICE). -/
def tokenize : Bool → List Char → List Char → List (List Char)
  | _, cur, [] => flushToken cur
  | true, cur, c :: cs =>
    if c = '"' then (c :: cur).reverse :: tokenize false [] cs else tokenize true (c :: cur) cs
  | false, cur, c :: cs =>
    if c = ';' then flushToken cur
    else if c = '"' then flushToken cur ++ tokenize true [c] cs
    else if c = ',' then flushToken cur ++ [c] :: tokenize false [] cs
    else if c = ' ' ∨ c = '\t' then flushToken cur ++ tokenize false [] cs
    else tokenize false (c :: cur) cs

/-- The value of a digit in a base up to 16. -/
def digitValue (base : Nat) (c : Char) : Option Nat :=
  let v := if '0' ≤ c ∧ c ≤ '9' then c.toNat - 48
    else if 'a' ≤ c ∧ c ≤ 'f' then c.toNat - 87
    else if 'A' ≤ c ∧ c ≤ 'F' then c.toNat - 55
    else 16
  if v < base then some v else none

/-- The value of digits, most significant first, after the value read so far. -/
def digitsValue (base : Nat) : Nat → List Char → Option Nat
  | acc, [] => some acc
  | acc, c :: cs => (digitValue base c).bind fun v => digitsValue base (acc * base + v) cs

/-- A number in decimal, or in hexadecimal after `0x`, below a bound. -/
def numberBelow (bound : Nat) (t : List Char) : Option Nat :=
  let v := match t with
    | [] => none
    | ['0', 'x'] => none
    | '0' :: 'x' :: ds => digitsValue 16 0 ds
    | ds => digitsValue 10 0 ds
  v.bind fun n => if n < bound then some n else none

/-- A 32-bit immediate. -/
def immediate (t : List Char) : Option Word := (numberBelow (2 ^ 32) t).map (BitVec.ofNat 32)

/-- The offset of a register name (10_state.md R20). -/
def registerOffset (t : List Char) : Option Byte :=
  [(['C','M','D'], 0x00#8), (['A','R','G','0'], 0x04#8), (['A','R','G','1'], 0x08#8),
   (['S','T','A','T','U','S'], 0x0C#8), (['R','E','S','U','L','T','0'], 0x10#8),
   (['R','E','S','U','L','T','1'], 0x14#8), (['R','E','S','U','L','T','2'], 0x18#8),
   (['C','T','R','L'], 0x1C#8), (['I','N','F','O'], 0x20#8), (['E','N','G','_','S','T','A','T','E'], 0x24#8),
   (['S','E','G','_','F','R','A','M','E','0','1'], 0x28#8), (['S','E','G','_','F','R','A','M','E','2','3'], 0x2C#8),
   (['L','E','D','[','0',']'], 0x40#8), (['L','E','D','[','1',']'], 0x44#8), (['L','E','D','[','2',']'], 0x48#8),
   (['L','E','D','[','3',']'], 0x4C#8), (['L','E','D','[','4',']'], 0x50#8), (['L','E','D','[','5',']'], 0x54#8),
   (['L','E','D','[','6',']'], 0x58#8)].lookup t

/-- An alignment operand. -/
def alignOperand (t : List Char) : Option Align :=
  if t = ['l'] then some .left else if t = ['r'] then some .right else none

/-- The 8-bit codes of a quoted text; none for a missing quote or a character beyond 8 bits. -/
def quotedCodes (t : List Char) : Option (List Byte) :=
  match t, t.reverse with
  | '"' :: rest, '"' :: _ =>
    if 2 ≤ t.length ∧ rest.all (fun c => decide (c.toNat < 256)) then some (rest.dropLast.map fun c => BitVec.ofNat 8 c.toNat) else none
  | _, _ => none

/-- The statements without operands. -/
def plainStatement (m : List Char) : Option Stmt :=
  [("nop".toList, .command .nop), ("led.flush".toList, .command .ledFlush),
   ("led.dispose".toList, .command .ledDispose), ("env.init".toList, .command .envInit),
   ("env.readt".toList, .command .envReadT), ("env.readp".toList, .command .envReadP),
   ("env.dispose".toList, .command .envDispose), ("seg.init".toList, .command .segInit),
   ("seg.dispose".toList, .command .segDispose), ("dispose.all".toList, .command .disposeAll),
   ("led.set.all".toList, .command .ledSetAll), ("led.on.all".toList, .command .ledOnAll),
   ("led.off.all".toList, .command .ledOffAll), ("wait".toList, .wait), ("wt.on".toList, .wt true),
   ("wt.off".toList, .wt false), ("clr".toList, Stmt.clr)].lookup m

/-- The statements with one operand. -/
def oneOperand (m a : List Char) : Option Stmt :=
  if m = "rd".toList then (registerOffset a).map .rd
  else if m = "led.set".toList then (numberBelow 256 a).map fun i => .command (.ledSet i)
  else if m = "led.on".toList then (numberBelow 256 a).map fun i => .command (.ledOn i)
  else if m = "led.off".toList then (numberBelow 256 a).map fun i => .command (.ledOff i)
  else none

/-- The statements with two operands. -/
def twoOperands (m a b : List Char) : Option Stmt :=
  if m = "wr".toList then (registerOffset a).bind fun off => (immediate b).map (.wr off)
  else if m = "seg.show".toList then (numberBelow 256 a).bind fun n => (alignOperand b).map fun al => .command (.segShow n al)
  else if m = "led.rgb.all".toList then (immediate a).bind fun c => (immediate b).map (.ledRgbAll c)
  else if m = "seg.text".toList then (quotedCodes a).bind fun s => (alignOperand b).map (.segText s)
  else none

/-- The statements with three operands. -/
def threeOperands (m a b c : List Char) : Option Stmt :=
  if m = "led.rgb".toList then
    (numberBelow 256 a).bind fun i => (immediate b).bind fun col => (immediate c).map (.ledRgb i col)
  else none

/-- One line of source text: the statements on it (none or one); none where an assembler refuses the line
(30_encoding.md R100: "An assembler refuses any other spelling"). R100 leaves open whether the form
`rd REG -> expected` of 95_test_vectors.md is a spelling; the model takes it as notation and refuses it (log 27, DESIGN CHOICE). -/
def parseLine (line : List Char) : Option (List Stmt) :=
  match tokenize false [] line with
  | [] => some []
  | [m] => (plainStatement m).map ([·])
  | [m, a] => (oneOperand m a).map ([·])
  | [m, a, [','], b] => (twoOperands m a b).map ([·])
  | [m, a, [','], b, [','], c] => (threeOperands m a b c).map ([·])
  | _ => none

/-- The statements of a program, one line of text each. -/
def parseProgram : List (List Char) → Option (List Stmt)
  | [] => some []
  | line :: rest =>
    match parseLine line, parseProgram rest with
    | some a, some b => some (a ++ b)
    | _, _ => none

/-- A host program's text as the host's accesses in program order. -/
def assemble (lines : List (List Char)) : Option (List Turn) := (parseProgram lines).bind expandAll

end Sys2Proof.Machine
end

