-- ==== Sys2Proof/Safety.lean ====
section
/-!
DEFINITION. The terms in which statements about the machine are made: a command accepted and running, runs of steps,
a completed command, the invariant, the codes a command may end with, and what reset leaves.
-/
namespace Sys2Proof.Machine

/-- `k` steps of the machine. -/
def runSteps (k : Nat) (s : State) : Host.Outcome State Fault Refusal := Host.Core.run Sys2Proof.core k s

/-- The command `i` is running: the latch is busy with a word that decodes to it (20_memory.md R70). -/
def Running (i : Instr) (s : State) : Prop := s.latch.busy = true ∧ decode s.latch.op = some i

/-- The command `i` has just been accepted and nothing outside the sequencer is due: the state in which 20_memory.md
R70 leaves an idle machine, with every turn the sequencer's. -/
def Accepted (i : Instr) (s : State) : Prop :=
  s.script = [] ∧ Running i s ∧ s.latch.pos = 0 ∧ s.latch.rx = []

/-- The state after a completion with code `c` and nothing else committed (60_exceptions.md R260, R261). -/
def completed (c : Code) (s : State) : State :=
  { s with code := c, sticky := s.sticky ||| codeFlag c, latch := { s.latch with busy := false } }

/-- The codes a command may end with (60_exceptions.md R263). -/
def codesOf : Instr → List Code
  | .nop | .disposeAll => [.ok]
  | .ledSet _ | .ledSetAll | .ledOn _ | .ledOnAll | .ledOff _ | .ledOffAll => [.ok, .notReady, .invalidInput]
  | .ledFlush | .ledDispose | .envReadT | .envDispose | .segDispose => [.ok, .notReady]
  | .envInit => [.ok, .deviceNotFound, .signatureMismatch, .notReady]
  | .envReadP => [.ok, .notReady, .arithGuard]
  | .segInit => [.ok, .deviceNotFound, .notReady]
  | .segShow _ _ => [.ok, .notReady, .invalidInput]

/-- The array that an LED command which passes its checks leaves and, when it flushes, sends
(40_led_strip.md R122 to R125); none for an index beyond the strip and for the other commands. -/
def changedLeds (i : Instr) (s : State) : Option (Vector LedEntry 7) :=
  let new : LedEntry :=
    ⟨quant s.latch.a1, s.latch.a0.extractLsb' 16 8, s.latch.a0.extractLsb' 8 8, s.latch.a0.extractLsb' 0 8⟩
  match i with
  | .ledSet idx => if h : idx < 7 then some (s.led.set idx new) else none
  | .ledSetAll => some (Vector.replicate 7 new)
  | .ledOn idx => if h : idx < 7 then some (s.led.set idx ⟨s.led[idx].level, 0xFF#8, 0xFF#8, 0xFF#8⟩) else none
  | .ledOnAll => some (s.led.map fun e => ⟨e.level, 0xFF#8, 0xFF#8, 0xFF#8⟩)
  | .ledOff idx => if h : idx < 7 then some (s.led.set idx ⟨s.led[idx].level, 0#8, 0#8, 0#8⟩) else none
  | .ledOffAll => some (s.led.map fun e => ⟨e.level, 0#8, 0#8, 0#8⟩)
  | .ledFlush => some s.led
  | .nop | .ledDispose | .envInit | .envReadT | .envReadP | .envDispose | .segInit | .segShow _ _ | .segDispose
  | .disposeAll => none

/-- The device a bus transaction addresses. -/
def BusEvent.device : BusEvent → BusAddr
  | .probe a _ | .read a _ _ | .write a _ => a

/-- The invariant of every run: the LED engine is READY or RELEASED; `cal_valid` holds exactly in READY; an engine is
INITIALIZING only while its own init command runs, and an init command that has emitted an event has entered it
(10_state.md R30, R35, R39; 43_system.md R241). -/
def Consistent (s : State) : Prop :=
  (s.ledState = .ready ∨ s.ledState = .released) ∧
  (s.calValid = true ↔ s.envState = .ready) ∧
  (s.envState = .initializing → Running .envInit s) ∧
  (s.segState = .initializing → Running .segInit s) ∧
  (Running .envInit s → s.envState = .uninitialized → s.latch.pos = 0) ∧
  (Running .segInit s → s.segState = .uninitialized → s.latch.pos = 0)

/-- The readiness transitions of the ENV and SEG engines (10_state.md R30), and staying. -/
def InitTransition (r r' : Readiness) : Prop :=
  r' = r ∨ (r = .uninitialized ∧ r' = .initializing) ∨ (r = .initializing ∧ (r' = .ready ∨ r' = .failed)) ∨
  ((r = .ready ∨ r = .failed ∨ r = .uninitialized) ∧ r' = .released)

/-- What reset leaves: every row of 70_reset_and_hazards.md R290 that gives a value. -/
structure AfterReset (s : State) : Prop where
  notBusy : s.latch.busy = false
  args : s.arg0 = 0#32 ∧ s.arg1 = 0#32
  results : s.result0 = 0#32 ∧ s.result1 = 0#32 ∧ s.result2 = 0#32
  code : s.code = .ok
  sticky : s.sticky = 0#7
  wt : s.ctrlWt = false
  ledState : s.ledState = .ready
  envState : s.envState = .uninitialized
  segState : s.segState = .uninitialized
  engState : hostReg s 0x24#8 = 0x00000002#32
  leds : ∀ i : Fin 7, s.led[i] = ⟨0#5, 0#8, 0#8, 0#8⟩
  calValid : s.calValid = false
  frame : ∀ c : Fin 4, some s.frame[c] = Config.charset s.params 0x20#8
  pins : s.pins = ⟨.low, .low, .high⟩
  info : hostReg s 0x20#8 = 0x0000C407#32
  traces : s.pinTrace = [] ∧ s.busTrace = []

end Sys2Proof.Machine
end

