-- ==== Sys2Proof/Certificates/Slice0/Obligations.lean ====
section
/-!
DEFINITION. The statements for the provers, from the numbered rules of spec/.
Every equation `exec i s = .next t` gives the whole next state t, so it is the instruction's frame as well: a field the
right side does not name (a register, a flag, an engine's state, a trace, and with them every byte of the host register
block that reads from them) is unchanged.
-/
open Sys2Proof Sys2Proof.Machine

/-! ## Encoding -/

/-- 30_encoding.md R90, R93, R100: decoding the word of a well-formed command gives the command back. -/
def Obligations.DecodeOfEncode : Prop :=
  ∀ i : Instr, i.wellFormed = true → decode (encode i) = some i

/-- 30_encoding.md R90, R91, R93: a word that decodes is the word of the one command it decodes to. -/
def Obligations.EncodeOfDecode : Prop :=
  ∀ (w : Word) (i : Instr), decode w = some i → i.wellFormed = true ∧ encode i = w

/-- 30_encoding.md R90: "No two rows overlap", and the table has the 17 rows of R93. -/
def Obligations.NoTwoRowsOverlap : Prop :=
  opcodeTable.length = 17 ∧
  opcodeTable.Pairwise (fun a b => ∀ w : Word, ¬ (a.selects w = true ∧ b.selects w = true))

/-- 30_encoding.md R93 and 95_test_vectors.md 3.1: words of every family, and what they decode as. -/
def Obligations.SpecWordsDecode : Prop :=
  decode 0x00000000#32 = some .nop ∧ decode 0x00000301#32 = some (.ledSet 3) ∧
  decode 0x00010001#32 = some .ledSetAll ∧ decode 0x0000FF02#32 = some (.ledOn 255) ∧
  decode 0x00000005#32 = some .ledDispose ∧ decode 0x00000012#32 = some .envReadP ∧
  decode 0x00010221#32 = some (.segShow 2 .right) ∧ decode 0x0000FF21#32 = some (.segShow 255 .left) ∧
  decode 0x00000030#32 = some .disposeAll

/-- 30_encoding.md R98 and 60_exceptions.md R262: the illegal words are exactly the four kinds listed, and one that is
accepted completes at once with ILLEGAL_COMMAND, changing only the code, its sticky flag and BUSY. -/
def Obligations.IllegalWordsCompleteIllegal : Prop :=
  (∀ w : Word, decode w = none ↔
    opField w ∉ [0x00#8, 0x01#8, 0x02#8, 0x03#8, 0x04#8, 0x05#8, 0x10#8, 0x11#8, 0x12#8, 0x13#8, 0x20#8, 0x21#8, 0x22#8, 0x30#8]
    ∨ rsvField w ≠ 0#15
    ∨ (opField w ∈ [0x00#8, 0x04#8, 0x05#8, 0x10#8, 0x11#8, 0x12#8, 0x13#8, 0x20#8, 0x22#8, 0x30#8] ∧
        (idxField w ≠ 0 ∨ fField w = true))
    ∨ (opField w ∈ [0x01#8, 0x02#8, 0x03#8] ∧ fField w = true ∧ idxField w ≠ 0)) ∧
  (∀ s : State, s.script = [] → s.latch.busy = true → decode s.latch.op = none →
    step s = .next { s with code := .illegalCommand, sticky := s.sticky ||| 0x20#7,
                            latch := { s.latch with busy := false } })

/-! ## Steps -/

/-- 20_memory.md R68, R70, 30_encoding.md R90: a step with the turn the sequencer's is one step of the decoded command;
the sequencer takes no step while idle; a `wait` lets the command run and, with BUSY = 0, is
one recorded read of `STATUS` (30_encoding.md R101; log 14), a clear in the same step comes first, and the
host's turn is its access; a command word placed by `withFetchWord` is run by the very next step.
The script's turns, the idle step and the placement of a word are the model's (log 1, 13, 16). -/
def Obligations.StepRunsDecodedCommand : Prop :=
  (∀ (s : State) (i : Instr), s.script = [] → Running i s → i.wellFormed = true ∧ step s = exec i s) ∧
  (∀ (s : State) (i : Instr) (rest : List Turn), s.script = .sequencer :: rest → Running i s →
    step s = exec i { s with script := rest }) ∧
  (∀ s : State, s.script = [] → s.latch.busy = false → step s = .next s) ∧
  (∀ (s : State) (i : Instr) (rest : List Turn), s.script = .wait :: rest → Running i s → step s = exec i s) ∧
  (∀ (s : State) (rest : List Turn), s.script = .wait :: rest → s.latch.busy = false →
    step s = .next { s with script := rest, hostReads := s.hostReads ++ [(0x0C#8, hostReg s 0x0C#8)] }) ∧
  (∀ (s : State) (i : Instr) (v : Word) (rest : List Turn), s.script = .clearDuring v :: rest → Running i s →
    step s = exec i { s with script := rest, sticky := s.sticky &&& ~~~(v.extractLsb' 8 7) }) ∧
  (∀ (s : State) (a : HostAccess) (rest : List Turn), s.script = .host a :: rest →
    step s = hostAccess a { s with script := rest }) ∧
  (∀ (s : State) (w : Nat) (i : Instr), decodeTableWord 32 w = some i →
    step (s.withFetchWord 32 w) = exec i (s.withFetchWord 32 w))

/-- 20_memory.md R68, R85: a sequencer step of a running command either completes it, emitting nothing, or emits exactly
one external event, on one of the two ports, and moves the position on by one. -/
def Obligations.OneEventOrCompletion : Prop :=
  ∀ (i : Instr) (s : State), s.latch.busy = true → ∃ t, exec i s = .next t ∧
    ((t.latch.busy = false ∧ t.latch.pos = s.latch.pos ∧ t.pins = s.pins ∧
        t.pinTrace = s.pinTrace ∧ t.busTrace = s.busTrace) ∨
     (t.latch.busy = true ∧ t.latch.pos = s.latch.pos + 1 ∧
        ((∃ e, t.pinTrace = s.pinTrace ++ [e] ∧ t.pins = drive e s.pins ∧ t.busTrace = s.busTrace) ∨
         (∃ e, t.busTrace = s.busTrace ++ [e] ∧ t.pinTrace = s.pinTrace ∧ t.pins = s.pins))))

/-- 10_state.md R39: until its completion step a command changes, of the committed state, nothing but the readiness an
init command enters; so a host read of any register but `STATUS.BUSY` and `ENG_STATE` returns the value from before. -/
def Obligations.CommitOnlyAtCompletion : Prop :=
  (∀ (i : Instr) (s t : State), s.latch.busy = true → exec i s = .next t → t.latch.busy = true →
    t.led = s.led ∧ t.coef = s.coef ∧ t.calValid = s.calValid ∧ t.frame = s.frame ∧
    t.result0 = s.result0 ∧ t.result1 = s.result1 ∧ t.result2 = s.result2 ∧
    t.code = s.code ∧ t.sticky = s.sticky ∧ t.ledState = s.ledState ∧
    (t.envState = s.envState ∨ (i = .envInit ∧ t.envState = .initializing)) ∧
    (t.segState = s.segState ∨ (i = .segInit ∧ t.segState = .initializing))) ∧
  (∀ (i : Instr) (s t : State) (n : Nat) (off : Byte), Accepted i s → runSteps n s = .next t →
    t.latch.busy = true → off ≠ 0x24#8 → hostReg t off = hostReg s off)

/-- 60_exceptions.md R260, R261, R263: a completion step ends with a code the command may end with, adds exactly that
code's sticky flag, and clears BUSY. -/
def Obligations.CompletionReportsOneCode : Prop :=
  ∀ (i : Instr) (s t : State), s.latch.busy = true → exec i s = .next t → t.latch.busy = false →
    t.code ∈ codesOf i ∧ t.sticky = s.sticky ||| codeFlag t.code

/-- 70_reset_and_hazards.md R297, 10_state.md R38: acceptance copies the operand registers, and a running command is
unaffected by a rewrite of them, which stands for the next command. -/
def Obligations.OperandsAreLatched : Prop :=
  (∀ (s : State) (w : Word), s.latch.busy = false → ∃ t, hostAccess (.write 0x00#8 4 w) s = .next t ∧
    t.latch.a0 = s.arg0 ∧ t.latch.a1 = s.arg1 ∧ t.latch.wt = s.ctrlWt) ∧
  (∀ (i : Instr) (s t : State) (a b : Word) (c : Bool), exec i s = .next t →
    exec i { s with arg0 := a, arg1 := b, ctrlWt := c } = .next { t with arg0 := a, arg1 := b, ctrlWt := c })

/-- 70_reset_and_hazards.md R300, 20_memory.md R65: an accepted command completes, within 817 sequencer steps.
The liveness and the counts are inferences the spec marks as its own. -/
def Obligations.AcceptedCommandCompletes : Prop :=
  ∀ (i : Instr) (s : State), Accepted i s → ∃ n t, n ≤ 817 ∧ runSteps n s = .next t ∧ t.latch.busy = false

/-! ## The host register block -/

/-- 20_memory.md R71: with BUSY = 1 a write to `CMD` is dropped, sets `E_OVERRUN` and changes nothing else; with BUSY = 0
(R70) it fills the latch in one step and changes nothing else. -/
def Obligations.CommandAcceptedOrDropped : Prop :=
  (∀ (s : State) (w : Word), s.latch.busy = true →
    hostAccess (.write 0x00#8 4 w) s = .next { s with sticky := s.sticky ||| 0x40#7 }) ∧
  (∀ (s : State) (w : Word), s.latch.busy = false →
    hostAccess (.write 0x00#8 4 w) s =
      .next { s with latch := { busy := true, op := w, a0 := s.arg0, a1 := s.arg1, wt := s.ctrlWt, pos := 0, rx := [] } })

/-- 10_state.md R25: a write to `STATUS` clears the sticky bits written 1 and leaves every other bit; a sticky bit the
sequencer sets in the same step ends at 1.
The turn that makes the two happen in one step is the model's (log 15). -/
def Obligations.StatusWriteOneToClear : Prop :=
  (∀ (s : State) (v : Word), ∃ t, hostAccess (.write 0x0C#8 4 v) s = .next t ∧ t = { s with sticky := t.sticky } ∧
    ∀ k : Nat, k < 7 → t.sticky.getLsbD k = (s.sticky.getLsbD k && !v.getLsbD (k + 8))) ∧
  (∀ (s t : State) (v : Word) (rest : List Turn), s.script = .clearDuring v :: rest → s.latch.busy = true →
    step s = .next t → t.latch.busy = false → t.sticky &&& codeFlag t.code = codeFlag t.code)

/-- 10_state.md R26: `CTRL` holds `WT` in bit 0, its other bits ignore writes and read 0, it resets to 0, and a command
runs with the value `WT` had at acceptance. -/
def Obligations.CtrlHoldsWriteThrough : Prop :=
  (∀ (s : State) (v : Word), hostAccess (.write 0x1C#8 4 v) s = .next { s with ctrlWt := v.getLsbD 0 }) ∧
  (∀ s : State, hostReg s 0x1C#8 = if s.ctrlWt then 1#32 else 0#32) ∧
  State.reset.ctrlWt = false ∧
  (∀ (s t : State) (w : Word), s.latch.busy = false → hostAccess (.write 0x00#8 4 w) s = .next t →
    t.latch.wt = s.ctrlWt) ∧
  (∀ (i : Instr) (s t : State) (c : Bool), exec i s = .next t →
    exec i { s with ctrlWt := c } = .next { t with ctrlWt := c })

/-- 10_state.md R27: `INFO` is the constant 0x0000C407 and ignores writes. -/
def Obligations.InfoIsConstant : Prop :=
  ∀ (s : State) (v : Word), hostReg s 0x20#8 = 0x0000C407#32 ∧ hostAccess (.write 0x20#8 4 v) s = .next s

/-- 10_state.md R28, R30: the fields of `ENG_STATE` hold the engines' readiness, every other bit reads 0, writes are
ignored, and INITIALIZING is visible while an init command runs.
That INITIALIZING is entered in the step of the probe is log 4 (DEDUCED). -/
def Obligations.EngStateShowsReadiness : Prop :=
  (∀ s : State, (hostReg s 0x24#8).extractLsb' 0 3 = readinessNumber s.ledState ∧
    (hostReg s 0x24#8).extractLsb' 4 3 = readinessNumber s.envState ∧
    (hostReg s 0x24#8).extractLsb' 8 3 = readinessNumber s.segState ∧
    (hostReg s 0x24#8).getLsbD 3 = false ∧ (hostReg s 0x24#8).getLsbD 7 = false ∧
    (hostReg s 0x24#8).extractLsb' 11 21 = 0#21) ∧
  (∀ (s : State) (v : Word), hostAccess (.write 0x24#8 4 v) s = .next s) ∧
  readinessNumber .uninitialized = 0#3 ∧ readinessNumber .initializing = 1#3 ∧ readinessNumber .ready = 2#3 ∧
  readinessNumber .failed = 3#3 ∧ readinessNumber .released = 4#3 ∧
  (∀ s : State, (s.envState = .uninitialized ∨ s.envState = .initializing) → s.latch.busy = true →
    ∃ t, exec .envInit s = .next t ∧ (t.latch.busy = true → (hostReg t 0x24#8).extractLsb' 4 3 = 1#3)) ∧
  (∀ s : State, (s.segState = .uninitialized ∨ s.segState = .initializing) → s.latch.busy = true →
    ∃ t, exec .segInit s = .next t ∧ (t.latch.busy = true → (hostReg t 0x24#8).extractLsb' 8 3 = 1#3))

/-- 10_state.md R29, R31: `LED[i]` and `SEG_FRAME01/23` show the stored array and frame, and ignore writes. -/
def Obligations.LedAndFrameReadBack : Prop :=
  (∀ (s : State) (i : Fin 7) (v : Word), let off := BitVec.ofNat 8 (0x40 + 4 * i.val)
    (hostReg s off).extractLsb' 24 8 = 0xE0#8 ||| s.led[i].level.zeroExtend 8 ∧
    (hostReg s off).extractLsb' 16 8 = s.led[i].r ∧ (hostReg s off).extractLsb' 8 8 = s.led[i].g ∧
    (hostReg s off).extractLsb' 0 8 = s.led[i].b ∧ hostAccess (.write off 4 v) s = .next s) ∧
  (∀ (s : State) (v : Word),
    (hostReg s 0x28#8).extractLsb' 0 16 = s.frame[0] ∧ (hostReg s 0x28#8).extractLsb' 16 16 = s.frame[1] ∧
    (hostReg s 0x2C#8).extractLsb' 0 16 = s.frame[2] ∧ (hostReg s 0x2C#8).extractLsb' 16 16 = s.frame[3] ∧
    hostAccess (.write 0x28#8 4 v) s = .next s ∧ hostAccess (.write 0x2C#8 4 v) s = .next s)

/-- 10_state.md R20, R32: a reserved offset reads 0 with no side effect; a write to a reserved offset or a read-only
register changes nothing, so it sets no flag. -/
def Obligations.ReservedAndReadOnlyOffsets : Prop :=
  ∀ (s : State) (off : Byte) (v : Word), off.toNat % 4 = 0 →
    (off ∉ [0x00#8, 0x04#8, 0x08#8, 0x0C#8, 0x10#8, 0x14#8, 0x18#8, 0x1C#8, 0x20#8, 0x24#8, 0x28#8, 0x2C#8,
            0x40#8, 0x44#8, 0x48#8, 0x4C#8, 0x50#8, 0x54#8, 0x58#8] →
      hostAccess (.read off 4) s = .next { s with hostReads := s.hostReads ++ [(off, 0#32)] }) ∧
    (off ∉ [0x00#8, 0x04#8, 0x08#8, 0x0C#8, 0x1C#8] → hostAccess (.write off 4 v) s = .next s)

/-- 10_state.md R20, R21, R23, R24: `CMD` reads 0; `STATUS` shows BUSY, CODE and the sticky flags, its other bits 0; the
operand and result registers read what they hold; a write to `ARG0` or `ARG1` stores the word.
The seven codes have the numbers of 60_exceptions.md R260. -/
def Obligations.StatusAndOperandRegisters : Prop :=
  ∀ (s : State) (v : Word),
    hostReg s 0x00#8 = 0#32 ∧
    (hostReg s 0x0C#8).getLsbD 0 = s.latch.busy ∧ (hostReg s 0x0C#8).extractLsb' 1 3 = 0#3 ∧
    (hostReg s 0x0C#8).extractLsb' 4 4 = codeNumber s.code ∧ (hostReg s 0x0C#8).extractLsb' 8 7 = s.sticky ∧
    (hostReg s 0x0C#8).extractLsb' 15 17 = 0#17 ∧
    hostReg s 0x04#8 = s.arg0 ∧ hostReg s 0x08#8 = s.arg1 ∧
    hostReg s 0x10#8 = s.result0 ∧ hostReg s 0x14#8 = s.result1 ∧ hostReg s 0x18#8 = s.result2 ∧
    hostAccess (.write 0x04#8 4 v) s = .next { s with arg0 := v } ∧
    hostAccess (.write 0x08#8 4 v) s = .next { s with arg1 := v } ∧
    codeNumber .ok = 0#4 ∧ codeNumber .deviceNotFound = 1#4 ∧ codeNumber .signatureMismatch = 2#4 ∧
    codeNumber .notReady = 3#4 ∧ codeNumber .invalidInput = 4#4 ∧ codeNumber .arithGuard = 5#4 ∧
    codeNumber .illegalCommand = 6#4

/-- 20_memory.md R60, R62, R69, R82: an aligned 32-bit host read answers the register and changes nothing in the block;
every access of another width or alignment is refused, with its offset and width recorded; so is an access of a second
host (60_exceptions.md R273).
The record of what the host read is the model's (log 18). -/
def Obligations.HostAccessesDefinedAndRefused : Prop :=
  (∀ (s : State) (off : Byte), off.toNat % 4 = 0 →
    hostAccess (.read off 4) s = .next { s with hostReads := s.hostReads ++ [(off, hostReg s off)] }) ∧
  (∀ (s : State) (rest : List Turn) (off : Byte) (width : Nat) (v : Word), (width ≠ 4 ∨ off.toNat % 4 ≠ 0) →
    step { s with script := .host (.read off width) :: rest } = .refused (.hostAccess off width) ∧
    step { s with script := .host (.write off width v) :: rest } = .refused (.hostAccess off width)) ∧
  (∀ (s : State) (rest : List Turn) (a : HostAccess),
    step { s with script := .otherHost a :: rest } = .refused .secondHost)

/-! ## Reset, parameters, invariants -/

/-- 70_reset_and_hazards.md R290, R293: the machine after reset, and after a reset that arrives in any state, even while
a command runs, has the values of the reset table; nothing of the command is committed and the events already emitted
stand as the past of the traces. The contents the spec leaves unspecified are not named.
Keeping the earlier events apart from the emptied traces is the model's choice (log 12). -/
def Obligations.ResetLeavesTheTable : Prop :=
  AfterReset State.reset ∧
  (∀ (s : State) (rest : List Turn), s.script = .reset :: rest → ∃ t, step s = .next t ∧ AfterReset t ∧
    t.params = s.params ∧ t.script = rest ∧ t.pinPast = s.pinPast ++ s.pinTrace ∧ t.busPast = s.busPast ++ s.busTrace)

/-- 00_scope.md R8, 20_memory.md R87: a table of parameters is refused exactly when the two device addresses are equal or
`CHARSET` has no entry for 0x20; an accepted one keeps its addresses and its charset. -/
def Obligations.BadParametersRefused : Prop :=
  ∀ r : RawParams,
    (Config.build r = none ↔ r.envAddr = r.segAddr ∨ r.charset.lookup 0x20#8 = none) ∧
    (∀ p, Config.build r = some p → p.envAddr = r.envAddr ∧ Config.segAddr p = r.segAddr ∧
      ∀ c, Config.charset p c = r.charset.lookup c)

/-- 10_state.md R30, R35, 43_system.md R241: every step keeps the invariant.
Its clauses are inferences from those rules; the step at which INITIALIZING is entered is log 4 (DEDUCED). -/
def Obligations.StepKeepsTheInvariant : Prop :=
  ∀ s t : State, Consistent s → step s = .next t → Consistent t

/-- 70_reset_and_hazards.md R290: reset meets the invariant. -/
def Obligations.ResetMeetsTheInvariant : Prop := Consistent State.reset

/-- 10_state.md R30: in every state of a run, a step that is no reset takes the LED engine only from READY to RELEASED and
the ENV and SEG engines only along the transitions listed; so none leaves RELEASED, and FAILED is left only for RELEASED.
The invariant it assumes has a statement of its own. -/
def Obligations.ReadinessTransitions : Prop :=
  ∀ s t : State, Consistent s → step s = .next t → s.script.head? ≠ some .reset →
    (t.ledState = s.ledState ∨ (s.ledState = .ready ∧ t.ledState = .released)) ∧
    InitTransition s.envState t.envState ∧ InitTransition s.segState t.segState

/-- 70_reset_and_hazards.md R296, 10_state.md R30: whatever the step, a released LED engine drives no line, a released ENV
or SEG engine's device is not addressed, and only reset leaves RELEASED. -/
def Obligations.ReleasedEnginesStaySilent : Prop :=
  ∀ s t : State, step s = .next t →
    (s.ledState = .released → t.pinTrace.drop s.pinTrace.length = [] ∧
      (t.ledState = .released ∨ s.script.head? = some .reset)) ∧
    (s.envState = .released → (∀ e ∈ t.busTrace.drop s.busTrace.length, e.device ≠ s.params.envAddr) ∧
      (t.envState = .released ∨ s.script.head? = some .reset)) ∧
    (s.segState = .released → (∀ e ∈ t.busTrace.drop s.busTrace.length, e.device ≠ Config.segAddr s.params) ∧
      (t.segState = .released ∨ s.script.head? = some .reset))

/-- 10_state.md R34, 41_env_sensor.md R170: coefficients change only at the completion of a running `env.init` that was
not READY before, or at reset; and no host register exposes them. -/
def Obligations.CoefficientsImmutableAndHidden : Prop :=
  (∀ s t : State, step s = .next t → t.coef ≠ s.coef →
    s.script.head? = some .reset ∨ (Running .envInit s ∧ s.envState ≠ .ready ∧ t.envState = .ready)) ∧
  (∀ (s : State) (c : Vector (BitVec 16) 12) (off : Byte), hostReg { s with coef := c } off = hostReg s off)

/-! ## LED commands -/

/-- 40_led_strip.md R120: the clamped brightness b in [0, 1] gives floor(31·b), and the corner cases. -/
def Obligations.BrightnessQuantised : Prop :=
  (∀ a1 : Word, 0 ≤ a1.toInt → a1.toInt ≤ 65536 →
    ((quant a1).toNat : Int) = min 31 (31 * a1.toInt / 65536)) ∧
  (∀ a1 : Word, a1.toInt < 0 → quant a1 = 0#5) ∧
  (∀ a1 : Word, 65536 ≤ a1.toInt → quant a1 = 31#5) ∧
  quant 0x0000FFFF#32 = 30#5 ∧ quant 0x00000843#32 = 1#5 ∧ quant 0x80000000#32 = 0#5 ∧ quant 0x00008000#32 = 15#5 ∧
  (∀ a1 : Word, 0 ≤ a1.toInt → a1.toInt < 2115 → quant a1 = 0#5) ∧
  (∀ lv : BitVec 5, (brightnessByte lv).toNat = 0xE0 + lv.toNat)

/-- 40_led_strip.md R122 to R125, 43_system.md R240, 60_exceptions.md R264: outside READY every LED command completes
NOT_READY, whatever its operands, with no other effect. -/
def Obligations.LedCommandsNotReady : Prop :=
  ∀ (s : State) (idx : Nat), s.ledState ≠ .ready →
    ∀ i ∈ [Instr.ledSet idx, .ledSetAll, .ledOn idx, .ledOnAll, .ledOff idx, .ledOffAll, .ledFlush, .ledDispose],
      exec i s = .next { s with code := .notReady, sticky := s.sticky ||| 0x04#7, latch := { s.latch with busy := false } }

/-- 40_led_strip.md R121: the ALL form selects every LED, a single index below 7 selects that LED, and an index beyond the
strip is rejected with INVALID_INPUT and touches nothing. -/
def Obligations.LedTargetsResolved : Prop :=
  targets .all = some [0, 1, 2, 3, 4, 5, 6] ∧
  (∀ idx, idx < 7 → targets (.single idx) = some [idx]) ∧
  (∀ idx, 7 ≤ idx → targets (.single idx) = none) ∧
  (∀ (s : State) (idx : Nat), s.ledState = .ready → 7 ≤ idx →
    ∀ i ∈ [Instr.ledSet idx, .ledOn idx, .ledOff idx],
      exec i s = .next { s with code := .invalidInput, sticky := s.sticky ||| 0x08#7, latch := { s.latch with busy := false } })

/-- 40_led_strip.md R122, 30_encoding.md R94, R95: `led.set` stores the quantised level and the colour in the LED it
selects, `led.set.all` in every LED, and completes OK with no event when `wt` = 0 or the flush is over. -/
def Obligations.LedSetStores : Prop :=
  ∀ s : State, s.ledState = .ready → (s.latch.wt = false ∨ 812 ≤ s.latch.pos) →
    (∀ (idx : Nat) (h : idx < 7), exec (.ledSet idx) s = .next { s with
      led := s.led.set idx ⟨quant s.latch.a1, s.latch.a0.extractLsb' 16 8, s.latch.a0.extractLsb' 8 8, s.latch.a0.extractLsb' 0 8⟩
      code := .ok, latch := { s.latch with busy := false } }) ∧
    exec .ledSetAll s = .next { s with
      led := Vector.replicate 7 ⟨quant s.latch.a1, s.latch.a0.extractLsb' 16 8, s.latch.a0.extractLsb' 8 8, s.latch.a0.extractLsb' 0 8⟩
      code := .ok, latch := { s.latch with busy := false } }

/-- 40_led_strip.md R123: `led.on` stores white and keeps the level. -/
def Obligations.LedOnStoresWhite : Prop :=
  ∀ s : State, s.ledState = .ready → (s.latch.wt = false ∨ 812 ≤ s.latch.pos) →
    (∀ (idx : Nat) (h : idx < 7), exec (.ledOn idx) s = .next { s with
      led := s.led.set idx ⟨s.led[idx].level, 0xFF#8, 0xFF#8, 0xFF#8⟩
      code := .ok, latch := { s.latch with busy := false } }) ∧
    exec .ledOnAll s = .next { s with
      led := s.led.map fun e => ⟨e.level, 0xFF#8, 0xFF#8, 0xFF#8⟩
      code := .ok, latch := { s.latch with busy := false } }

/-- 40_led_strip.md R124: `led.off` stores black and keeps the level. -/
def Obligations.LedOffStoresBlack : Prop :=
  ∀ s : State, s.ledState = .ready → (s.latch.wt = false ∨ 812 ≤ s.latch.pos) →
    (∀ (idx : Nat) (h : idx < 7), exec (.ledOff idx) s = .next { s with
      led := s.led.set idx ⟨s.led[idx].level, 0#8, 0#8, 0#8⟩
      code := .ok, latch := { s.latch with busy := false } }) ∧
    exec .ledOffAll s = .next { s with
      led := s.led.map fun e => ⟨e.level, 0#8, 0#8, 0#8⟩
      code := .ok, latch := { s.latch with busy := false } }

/-- 40_led_strip.md R126: with the latched `wt` = 1 a command that passes its checks sends the flush of the updated array
event by event before it completes; a failed check completes first; with `wt` = 0 no pin event is emitted; `led.flush`
sends the array whatever `wt` is; `CTRL.WT` resets to 0. -/
def Obligations.WriteThroughFlushes : Prop :=
  (∀ (i : Instr) (s : State) (arr : Vector LedEntry 7) (e : PinEvent), s.ledState = .ready →
    changedLeds i s = some arr → (s.latch.wt = true ∨ i = .ledFlush) → (flushEvents arr)[s.latch.pos]? = some e →
    exec i s = .next (emitPin e s)) ∧
  (∀ (s : State) (idx : Nat), s.ledState = .ready → 7 ≤ idx →
    ∀ i ∈ [Instr.ledSet idx, .ledOn idx, .ledOff idx], ∃ t, exec i s = .next t ∧
      t.latch.busy = false ∧ t.pinTrace = s.pinTrace ∧ t.pins = s.pins) ∧
  (∀ (s : State) (idx : Nat), s.ledState ≠ .ready →
    ∀ i ∈ [Instr.ledSet idx, .ledSetAll, .ledOn idx, .ledOnAll, .ledOff idx, .ledOffAll, .ledFlush], ∃ t, exec i s = .next t ∧
      t.latch.busy = false ∧ t.pinTrace = s.pinTrace ∧ t.pins = s.pins) ∧
  (∀ (s : State) (idx : Nat), s.latch.wt = false →
    ∀ i ∈ [Instr.ledSet idx, .ledSetAll, .ledOn idx, .ledOnAll, .ledOff idx, .ledOffAll], ∃ t, exec i s = .next t ∧
      t.latch.busy = false ∧ t.pinTrace = s.pinTrace ∧ t.pins = s.pins) ∧
  State.reset.ctrlWt = false

/-- 40_led_strip.md R125: `led.flush` sends the event of the flush its position names, and when the flush is over
completes OK with the array as it was. -/
def Obligations.LedFlushSendsAndCompletes : Prop :=
  ∀ s : State, s.ledState = .ready →
    (∀ e, (flushEvents s.led)[s.latch.pos]? = some e → exec .ledFlush s = .next (emitPin e s)) ∧
    (812 ≤ s.latch.pos → exec .ledFlush s = .next { s with code := .ok, latch := { s.latch with busy := false } })

/-- 43_system.md R240: `led.dispose` sends the flush of the array with every colour 0 and every level kept, then releases
DATA, CLK and CS, whatever `wt` is, and then completes OK with the engine RELEASED. -/
def Obligations.LedDisposeTurnsOffAndReleases : Prop :=
  ∀ s : State, s.ledState = .ready →
    let off := s.led.map fun e => (⟨e.level, 0#8, 0#8, 0#8⟩ : LedEntry)
    (∀ e, (flushEvents off ++ [⟨.data, .z⟩, ⟨.clk, .z⟩, ⟨.cs, .z⟩])[s.latch.pos]? = some e →
      exec .ledDispose s = .next (emitPin e s)) ∧
    (815 ≤ s.latch.pos → exec .ledDispose s = .next { s with
      led := off, ledState := .released, code := .ok, latch := { s.latch with busy := false } })

/-- 40_led_strip.md R125, R127, R133, 70_reset_and_hazards.md R301: an accepted LED command that flushes takes 813
sequencer steps: it extends the pin trace by exactly the flush of its array, leaves the lines at their idle levels,
commits the array and completes OK, and changes nothing else.
The count of steps is the spec's own inference (R301). -/
def Obligations.FlushRunsToCompletion : Prop :=
  ∀ (i : Instr) (s : State) (arr : Vector LedEntry 7), Accepted i s → s.ledState = .ready → changedLeds i s = some arr →
    (s.latch.wt = true ∨ i = .ledFlush) →
    runSteps 813 s = .next { s with
      led := arr, pins := ⟨.low, .low, .high⟩, pinTrace := s.pinTrace ++ flushEvents arr
      code := .ok, latch := { s.latch with busy := false, pos := 812 } }

/-- 43_system.md R240, 70_reset_and_hazards.md R301: an accepted `led.dispose` takes 816 sequencer steps: the off-frame,
the three Z writes, and the completion, after which the lines are released.
The count of steps is the spec's own inference (R301). -/
def Obligations.LedDisposeRunsToCompletion : Prop :=
  ∀ s : State, Accepted .ledDispose s → s.ledState = .ready →
    let off := s.led.map fun e => (⟨e.level, 0#8, 0#8, 0#8⟩ : LedEntry)
    runSteps 816 s = .next { s with
      led := off, ledState := .released, pins := ⟨.z, .z, .z⟩
      pinTrace := s.pinTrace ++ flushEvents off ++ [⟨.data, .z⟩, ⟨.clk, .z⟩, ⟨.cs, .z⟩]
      code := .ok, latch := { s.latch with busy := false, pos := 815 } }

/-- 40_led_strip.md R127, 95_test_vectors.md 3.4: a flush has 812 events; which event stands at each index. -/
def Obligations.FlushEventAtEachIndex : Prop :=
  ∀ arr : Vector LedEntry 7,
    (flushEvents arr).length = 812 ∧
    (flushEvents arr)[0]? = some ⟨.cs, .low⟩ ∧ (flushEvents arr)[1]? = some ⟨.data, .low⟩ ∧
    (∀ k, k < 36 → (flushEvents arr)[2 + 2 * k]? = some ⟨.clk, .high⟩ ∧ (flushEvents arr)[3 + 2 * k]? = some ⟨.clk, .low⟩) ∧
    (∀ (i : Fin 7) (j : Nat) (b : Byte) (k : Nat), k < 8 →
      [0xE0#8 ||| arr[i].level.zeroExtend 8, arr[i].b, arr[i].g, arr[i].r][j]? = some b →
      (flushEvents arr)[74 + 96 * i.val + 24 * j + 3 * k]? = some ⟨.data, if b.getLsbD (7 - k) then .high else .low⟩ ∧
      (flushEvents arr)[75 + 96 * i.val + 24 * j + 3 * k]? = some ⟨.clk, .high⟩ ∧
      (flushEvents arr)[76 + 96 * i.val + 24 * j + 3 * k]? = some ⟨.clk, .low⟩) ∧
    (flushEvents arr)[746]? = some ⟨.data, .low⟩ ∧
    (∀ k, k < 32 → (flushEvents arr)[747 + 2 * k]? = some ⟨.clk, .high⟩ ∧ (flushEvents arr)[748 + 2 * k]? = some ⟨.clk, .low⟩) ∧
    (flushEvents arr)[811]? = some ⟨.cs, .high⟩

/-- 40_led_strip.md R131: CLK is 0 before every pulse of a flush, so every pulse is one rising edge; the clocked bit stream
is 36 zeros, the LED bytes most significant bit first, 32 zeros, 292 bits; each LED's group starts 1, 1, 1; and the LED
data never holds 32 consecutive zero bits.
Everything in R131 but the definition of the stream is an inference the spec marks as its own. -/
def Obligations.FlushBitStream : Prop :=
  State.reset.pins.clk = .low ∧ pulse.getLast? = some ⟨.clk, .low⟩ ∧ ∀ (arr : Vector LedEntry 7) (p : Pins), p.clk = .low →
    (∀ before after, flushEvents arr = before ++ ⟨.clk, .high⟩ :: after → (pinsAfter before p).clk = .low) ∧
    clockedBits p (flushEvents arr) = streamOf arr ∧ (streamOf arr).length = 292 ∧
    (∀ k, k < 36 → (streamOf arr)[k]? = some .low) ∧ (∀ k, k < 32 → (streamOf arr)[260 + k]? = some .low) ∧
    (∀ (i : Fin 7) (j : Nat) (b : Byte) (k : Nat), k < 8 →
      [0xE0#8 ||| arr[i].level.zeroExtend 8, arr[i].b, arr[i].g, arr[i].r][j]? = some b →
      (streamOf arr)[36 + 32 * i.val + 8 * j + k]? = some (if b.getLsbD (7 - k) then .high else .low)) ∧
    (∀ i : Fin 7, ∀ k, k < 3 → (streamOf arr)[36 + 32 * i.val + k]? = some .high) ∧
    (∀ k, 36 ≤ k → k + 32 ≤ 260 → ∃ j, j < 32 ∧ (streamOf arr)[k + j]? = some .high)

/-- 40_led_strip.md R132: from a complete flush the receiver takes, for physical LED i, the brightness byte, blue, green
and red of entry i. -/
def Obligations.ReceiverTakesTheArray : Prop :=
  ∀ (arr : Vector LedEntry 7) (p : Pins) (i : Fin 7), p.clk = .low →
    receiverGroup (clockedBits p (flushEvents arr)) i.val =
      (0xE0#8 ||| arr[i].level.zeroExtend 8, arr[i].b, arr[i].g, arr[i].r)

/-! ## ENV commands -/

/-- 41_env_sensor.md R161: the raw sample, its range, what it discards, and the corner cases. -/
def Obligations.RawSampleAssembled : Prop :=
  (∀ msb lsb xlsb : Byte, (raw20 msb lsb xlsb).toNat = msb.toNat * 4096 + lsb.toNat * 16 + xlsb.toNat / 16 ∧
    (raw20 msb lsb xlsb).extractLsb' 12 8 = msb ∧ (raw20 msb lsb xlsb).extractLsb' 4 8 = lsb ∧
    (raw20 msb lsb xlsb).extractLsb' 0 4 = xlsb.extractLsb' 4 4) ∧
  raw20 0xFF#8 0xFF#8 0xFF#8 = 0xFFFFF#20 ∧ raw20 0#8 0#8 0x0F#8 = 0#20 ∧ raw20 0x7E#8 0xED#8 0x00#8 = 519888#20

/-- 41_env_sensor.md R162, R164 and 95_test_vectors.md 3.6, 3.7: values of the compensation formulas, with and without
wrap-around, and the range of t_fine.
The spec takes the formulas from general knowledge (log 22, UNVERIFIED) and derives the values. -/
def Obligations.CompensationValues : Prop :=
  (∀ a t1 t2 t3 : Int, -2147483648 ≤ compT a t1 t2 t3 ∧ compT a t1 t2 t3 < 2147483648) ∧
  compT 519888 27504 26435 (-1000) = 128422 ∧ compT 0 27504 26435 (-1000) = -721301 ∧
  compT 0xFFFFF 27504 26435 (-1000) = 960246 ∧ compT 0xFFFFF 0 32767 32767 = -144 ∧
  compT 0 65535 (-32768) (-32768) = 32 ∧
  compP 415148 128422 36477 (-10685) 3024 2855 140 (-7) 15500 (-14600) 6000 = some 25767233#32 ∧
  compP 0xFFFFF 128422 36477 (-10685) 3024 2855 140 (-7) 15500 (-14600) 6000 = some 0xFFE61920#32 ∧
  compP 415148 (-2147483648) 36477 (-10685) 3024 2855 140 (-7) 15500 (-14600) 6000 = some 0xECAF0FC1#32

/-- 41_env_sensor.md R164: the result is GUARD exactly when the divisor is 0, and always when P1 = 0. -/
def Obligations.PressureGuard : Prop :=
  (∀ a tf p1 p2 p3 p4 p5 p6 p7 p8 p9 : Int,
    compP a tf p1 p2 p3 p4 p5 p6 p7 p8 p9 = none ↔ compPDivisor tf p1 p2 p3 = 0) ∧
  (∀ a tf p2 p3 p4 p5 p6 p7 p8 p9 : Int, compP a tf 0 p2 p3 p4 p5 p6 p7 p8 p9 = none)

/-- 41_env_sensor.md R170: `env.init` in READY completes OK with no event; in FAILED or RELEASED NOT_READY; a probe not
acknowledged completes DEVICE_NOT_FOUND and an ID other than the signature SIGNATURE_MISMATCH, both FAILED with
no coefficient captured; its first event is the probe, with INITIALIZING entered at once.
That INITIALIZING is entered in the step of the probe is log 4 (DEDUCED). -/
def Obligations.EnvInitChecks : Prop :=
  ∀ s : State,
    (s.envState = .ready → exec .envInit s = .next { s with code := .ok, latch := { s.latch with busy := false } }) ∧
    (s.envState = .failed ∨ s.envState = .released →
      exec .envInit s = .next { s with code := .notReady, sticky := s.sticky ||| 0x04#7, latch := { s.latch with busy := false } }) ∧
    (s.envState = .uninitialized → s.latch.pos = 0 →
      exec .envInit s = .next (emitProbe s.params.envAddr { s with envState := .initializing })) ∧
    (s.envState = .initializing → s.latch.pos = 1 → s.latch.rx = [.ack false] →
      exec .envInit s = .next { s with envState := .failed, code := .deviceNotFound, sticky := s.sticky ||| 0x01#7,
                                       latch := { s.latch with busy := false } }) ∧
    (s.envState = .initializing → s.latch.pos = 1 → s.latch.rx = [.ack true] →
      exec .envInit s = .next (emitRead s.params.envAddr s.params.envIdReg 1 s)) ∧
    (∀ id, s.envState = .initializing → s.latch.pos = 2 → s.latch.rx = [.ack true, .bytes [id]] → id ≠ s.params.envSignature →
      exec .envInit s = .next { s with envState := .failed, code := .signatureMismatch, sticky := s.sticky ||| 0x02#7,
                                       latch := { s.latch with busy := false } })

/-- 41_env_sensor.md R170, 20_memory.md R78: when the probe, the ID and the twelve coefficient reads have been answered and
the control register written, `env.init` commits the little-endian coefficients, `cal_valid` and READY, and completes OK. -/
def Obligations.EnvInitCommits : Prop :=
  ∀ (s : State) (lo hi : Fin 12 → Byte), s.envState = .initializing → s.latch.pos = 15 →
    s.latch.rx = [.ack true, .bytes [s.params.envSignature]] ++ List.ofFn (fun k => .bytes [lo k, hi k]) →
    exec .envInit s = .next { s with
      coef := Vector.ofFn fun k => hi k ++ lo k
      calValid := true, envState := .ready, code := .ok, latch := { s.latch with busy := false } }

/-- 41_env_sensor.md R170, R160, 70_reset_and_hazards.md R301: an accepted `env.init` of an uninitialized engine whose probe
is acknowledged and whose ID byte is the signature takes 16 sequencer steps and makes exactly 15 transactions: the
probe, the ID read, the reads of `ENV_CAL_REG[0..11]` in order, the control write.
Answers come from the tapes, then from free values, in the order drawn (log 2, 3, 29).
The count of steps is the spec's own inference (R301). -/
def Obligations.EnvInitRunsToReady : Prop :=
  ∀ s : State, Accepted .envInit s → s.envState = .uninitialized → nextAck s = true →
    byteAhead s 0 = s.params.envSignature →
    ∃ rx, runSteps 16 s = .next { s with
      envState := .ready, calValid := true
      coef := Vector.ofFn fun k => byteAhead s (2 * k.val + 2) ++ byteAhead s (2 * k.val + 1)
      code := .ok
      busTrace := s.busTrace
        ++ [.probe s.params.envAddr true, .read s.params.envAddr s.params.envIdReg [s.params.envSignature]]
        ++ List.ofFn (fun k : Fin 12 =>
            .read s.params.envAddr s.params.envCalReg[k] [byteAhead s (2 * k.val + 1), byteAhead s (2 * k.val + 2)])
        ++ [.write s.params.envAddr [s.params.envCtrlReg, s.params.envCtrlValue]]
      ackTape := s.ackTape.drop 1, ackDraws := s.ackDraws + (1 - s.ackTape.length)
      byteTape := s.byteTape.drop 25, byteDraws := s.byteDraws + (25 - s.byteTape.length)
      latch := { s.latch with busy := false, pos := 15, rx := rx } }

/-- 41_env_sensor.md R171, R172, R169: `env.readt` outside READY zeroes the results and completes NOT_READY with no bus
event; in READY it makes one 3-byte read and then reports t_fine and the raw sample. -/
def Obligations.EnvReadTReports : Prop :=
  ∀ s : State,
    (s.envState ≠ .ready → exec .envReadT s = .next { s with
      result0 := 0#32, result1 := 0#32, result2 := 0#32
      code := .notReady, sticky := s.sticky ||| 0x04#7, latch := { s.latch with busy := false } }) ∧
    (s.envState = .ready → s.latch.pos = 0 →
      exec .envReadT s = .next (emitRead s.params.envAddr s.params.envTempMsbReg 3 s)) ∧
    (∀ m l x, s.envState = .ready → s.latch.pos = 1 → s.latch.rx = [.bytes [m, l, x]] →
      let adcT := raw20 m l x
      let tf := compT adcT.toNat s.coef[0].toNat s.coef[1].toInt s.coef[2].toInt
      exec .envReadT s = .next { s with
        result0 := BitVec.ofInt 32 tf, result1 := adcT.zeroExtend 32, result2 := BitVec.ofInt 32 tf
        code := .ok, latch := { s.latch with busy := false } })

/-- 41_env_sensor.md R171, R173, R169: `env.readp` outside READY zeroes the results and completes NOT_READY with no bus
event; in READY it reads temperature, then pressure, and then reports the pressure, or 0 and ARITH_GUARD. -/
def Obligations.EnvReadPReports : Prop :=
  ∀ s : State,
    (s.envState ≠ .ready → exec .envReadP s = .next { s with
      result0 := 0#32, result1 := 0#32, result2 := 0#32
      code := .notReady, sticky := s.sticky ||| 0x04#7, latch := { s.latch with busy := false } }) ∧
    (s.envState = .ready → s.latch.pos = 0 →
      exec .envReadP s = .next (emitRead s.params.envAddr s.params.envTempMsbReg 3 s)) ∧
    (∀ m l x, s.envState = .ready → s.latch.pos = 1 → s.latch.rx = [.bytes [m, l, x]] →
      exec .envReadP s = .next (emitRead s.params.envAddr s.params.envPressMsbReg 3 s)) ∧
    (∀ m l x m' l' x', s.envState = .ready → s.latch.pos = 2 → s.latch.rx = [.bytes [m, l, x], .bytes [m', l', x']] →
      let tf := compT (raw20 m l x).toNat s.coef[0].toNat s.coef[1].toInt s.coef[2].toInt
      let adcP := raw20 m' l' x'
      let r := compP adcP.toNat tf s.coef[3].toNat s.coef[4].toInt s.coef[5].toInt s.coef[6].toInt s.coef[7].toInt
        s.coef[8].toInt s.coef[9].toInt s.coef[10].toInt s.coef[11].toInt
      (r = none → exec .envReadP s = .next { s with
        result0 := 0#32, result1 := adcP.zeroExtend 32, result2 := BitVec.ofInt 32 tf
        code := .arithGuard, sticky := s.sticky ||| 0x10#7, latch := { s.latch with busy := false } }) ∧
      (∀ p32, r = some p32 → exec .envReadP s = .next { s with
        result0 := p32, result1 := adcP.zeroExtend 32, result2 := BitVec.ofInt 32 tf
        code := .ok, latch := { s.latch with busy := false } }))

/-- 41_env_sensor.md R173, R174, 20_memory.md R66, 70_reset_and_hazards.md R301: an accepted `env.readp` in READY takes three
sequencer steps and makes exactly two 3-byte reads, temperature first; whatever bytes the device answers, it completes
OK with the pressure of those two samples or ARITH_GUARD with RESULT0 = 0, reusing no earlier t_fine.
The count of steps is the spec's own inference (R301). -/
def Obligations.EnvReadPRunsOnFreshSamples : Prop :=
  ∀ s : State, Accepted .envReadP s → s.envState = .ready →
    let adcT := raw20 (byteAhead s 0) (byteAhead s 1) (byteAhead s 2)
    let adcP := raw20 (byteAhead s 3) (byteAhead s 4) (byteAhead s 5)
    let tf := compT adcT.toNat s.coef[0].toNat s.coef[1].toInt s.coef[2].toInt
    let r := compP adcP.toNat tf s.coef[3].toNat s.coef[4].toInt s.coef[5].toInt s.coef[6].toInt s.coef[7].toInt
      s.coef[8].toInt s.coef[9].toInt s.coef[10].toInt s.coef[11].toInt
    ∃ t, runSteps 3 s = .next t ∧ t.latch.busy = false ∧
      t.busTrace = s.busTrace ++
        [.read s.params.envAddr s.params.envTempMsbReg [byteAhead s 0, byteAhead s 1, byteAhead s 2],
         .read s.params.envAddr s.params.envPressMsbReg [byteAhead s 3, byteAhead s 4, byteAhead s 5]] ∧
      t.pinTrace = s.pinTrace ∧ t.result0 = r.getD 0#32 ∧ t.result1 = adcP.zeroExtend 32 ∧
      t.result2 = BitVec.ofInt 32 tf ∧ t.code = (if r = none then .arithGuard else .ok) ∧
      t.envState = .ready ∧ t.coef = s.coef

/-- 43_system.md R241: `env.dispose` clears `cal_valid` and releases the engine with no event; a released one is NOT_READY. -/
def Obligations.EnvDisposeReleases : Prop :=
  ∀ s : State,
    (s.envState ≠ .released → exec .envDispose s = .next { s with
      calValid := false, envState := .released, code := .ok, latch := { s.latch with busy := false } }) ∧
    (s.envState = .released → exec .envDispose s = .next { s with
      code := .notReady, sticky := s.sticky ||| 0x04#7, latch := { s.latch with busy := false } })

/-! ## SEG commands -/

/-- 42_segment_display.md R210: `seg.init`: the checks, the probe with INITIALIZING entered at once, the three one-byte
writes in order, and the completion READY, or FAILED when the probe is not acknowledged.
That INITIALIZING is entered in the step of the probe is log 4 (DEDUCED). -/
def Obligations.SegInitBringsUp : Prop :=
  ∀ s : State,
    (s.segState = .ready → exec .segInit s = .next { s with code := .ok, latch := { s.latch with busy := false } }) ∧
    (s.segState = .failed ∨ s.segState = .released →
      exec .segInit s = .next { s with code := .notReady, sticky := s.sticky ||| 0x04#7, latch := { s.latch with busy := false } }) ∧
    (s.segState = .uninitialized → s.latch.pos = 0 →
      exec .segInit s = .next (emitProbe (Config.segAddr s.params) { s with segState := .initializing })) ∧
    (s.segState = .initializing → s.latch.pos = 1 → s.latch.rx = [.ack false] →
      exec .segInit s = .next { s with segState := .failed, code := .deviceNotFound, sticky := s.sticky ||| 0x01#7,
                                       latch := { s.latch with busy := false } }) ∧
    (∀ b, s.segState = .initializing → s.latch.rx = [.ack true] → 1 ≤ s.latch.pos →
      [s.params.segCmdSystem, s.params.segCmdDisplay, s.params.segCmdBright][s.latch.pos - 1]? = some b →
      exec .segInit s = .next (emitWrite (Config.segAddr s.params) [b] s)) ∧
    (s.segState = .initializing → s.latch.rx = [.ack true] → 4 ≤ s.latch.pos →
      exec .segInit s = .next { s with segState := .ready, code := .ok, latch := { s.latch with busy := false } })

/-- 42_segment_display.md R210, 70_reset_and_hazards.md R301: an accepted `seg.init` of an uninitialized engine takes five
sequencer steps and four transactions when the probe is acknowledged, and two steps and one transaction when it is not.
The count of steps is the spec's own inference (R301). -/
def Obligations.SegInitRunsToReady : Prop :=
  ∀ s : State, Accepted .segInit s → s.segState = .uninitialized →
    (nextAck s = true → ∃ t, runSteps 5 s = .next t ∧ t.latch.busy = false ∧ t.segState = .ready ∧ t.code = .ok ∧
      t.frame = s.frame ∧ t.busTrace = s.busTrace ++
        [.probe (Config.segAddr s.params) true, .write (Config.segAddr s.params) [s.params.segCmdSystem],
         .write (Config.segAddr s.params) [s.params.segCmdDisplay], .write (Config.segAddr s.params) [s.params.segCmdBright]]) ∧
    (nextAck s = false → ∃ t, runSteps 2 s = .next t ∧ t.latch.busy = false ∧ t.segState = .failed ∧
      t.code = .deviceNotFound ∧ t.busTrace = s.busTrace ++ [.probe (Config.segAddr s.params) false])

/-- 42_segment_display.md R211, R212, R213, 20_memory.md R81: `seg.show` outside READY is NOT_READY; a text longer than 4 is
INVALID_INPUT with no bus write; else one 9-byte write of the pointer byte and the cells low byte first, then the frame
is committed. -/
def Obligations.SegShowWritesTheFrame : Prop :=
  ∀ (s : State) (n : Nat) (a : Align),
    (s.segState ≠ .ready → exec (.segShow n a) s = .next { s with
      code := .notReady, sticky := s.sticky ||| 0x04#7, latch := { s.latch with busy := false } }) ∧
    (s.segState = .ready → 4 < n → exec (.segShow n a) s = .next { s with
      code := .invalidInput, sticky := s.sticky ||| 0x08#7, latch := { s.latch with busy := false } }) ∧
    (s.segState = .ready → n ≤ 4 → s.latch.pos = 0 →
      let cells := textCells s.params n a s.latch.a0
      exec (.segShow n a) s = .next (emitWrite (Config.segAddr s.params)
        [0x00#8, cells[0].extractLsb' 0 8, cells[0].extractLsb' 8 8, cells[1].extractLsb' 0 8, cells[1].extractLsb' 8 8,
         cells[2].extractLsb' 0 8, cells[2].extractLsb' 8 8, cells[3].extractLsb' 0 8, cells[3].extractLsb' 8 8] s)) ∧
    (s.segState = .ready → n ≤ 4 → 1 ≤ s.latch.pos → exec (.segShow n a) s = .next { s with
      frame := textCells s.params n a s.latch.a0, code := .ok, latch := { s.latch with busy := false } })

/-- 42_segment_display.md R214, R215, 30_encoding.md R96: the cells of a text of n ≤ 4 characters: left alignment puts
character j in cell j, right alignment in cell 4 - n + j, every other cell is the space mask; a code without an entry
in `CHARSET` falls back to space, and 0x20 has an entry. -/
def Obligations.TextAlignedWithSpaceFallback : Prop :=
  (∀ (p : Params) (n : Nat) (a0 : Word) (c : Fin 4), n ≤ 4 →
    (textCells p n .left a0)[c] = (if c.val < n then enc p (a0.extractLsb' (8 * c.val) 8) else enc p 0x20#8) ∧
    (textCells p n .right a0)[c] =
      (if 4 - n ≤ c.val then enc p (a0.extractLsb' (8 * (c.val - (4 - n))) 8) else enc p 0x20#8)) ∧
  (∀ (p : Params) (c : Byte) (m : Mask), Config.charset p c = some m → enc p c = m) ∧
  (∀ (p : Params) (c : Byte), Config.charset p c = none → enc p c = enc p 0x20#8) ∧
  (∀ p : Params, Config.charset p 0x20#8 = some (enc p 0x20#8))

/-- 43_system.md R242: `seg.dispose` from READY writes the blank frame, then releases the engine with the frame blank; from
UNINITIALIZED or FAILED it writes nothing and keeps the frame; from RELEASED it is NOT_READY. -/
def Obligations.SegDisposeBlanksAndReleases : Prop :=
  ∀ s : State,
    (s.segState = .released → exec .segDispose s = .next { s with
      code := .notReady, sticky := s.sticky ||| 0x04#7, latch := { s.latch with busy := false } }) ∧
    (s.segState = .ready → s.latch.pos = 0 →
      let lo := (enc s.params 0x20#8).extractLsb' 0 8
      let hi := (enc s.params 0x20#8).extractLsb' 8 8
      exec .segDispose s =
        .next (emitWrite (Config.segAddr s.params) [0x00#8, lo, hi, lo, hi, lo, hi, lo, hi] s)) ∧
    (s.segState = .ready → 1 ≤ s.latch.pos → exec .segDispose s = .next { s with
      frame := Vector.replicate 4 (enc s.params 0x20#8), segState := .released, code := .ok
      latch := { s.latch with busy := false } }) ∧
    (s.segState ≠ .ready → s.segState ≠ .released → exec .segDispose s = .next { s with
      segState := .released, code := .ok, latch := { s.latch with busy := false } })

/-! ## Block commands -/

/-- 43_system.md R243: `nop` completes OK and changes nothing else; the sticky flags stay; it passes through acceptance
and completion, so BUSY is 1 for at least one step. -/
def Obligations.NopCompletesOk : Prop :=
  (∀ s : State, exec .nop s = .next { s with code := .ok, latch := { s.latch with busy := false } }) ∧
  (∀ s : State, s.script = [] → s.latch.busy = false → ∃ u t, hostAccess (.write 0x00#8 4 0x00000000#32) s = .next u ∧
    u.latch.busy = true ∧ step u = .next t ∧ t.latch.busy = false ∧ t.code = .ok ∧ t.sticky = s.sticky)

/-- 43_system.md R244: whatever the three engines' readiness, `dispose.all` emits at each position the event the rule
names (the off-frame and the three Z writes unless LED is RELEASED, then the blank frame write if SEG is READY; ENV has
no event), and when its events are over commits the three bodies, skipping RELEASED engines, and completes OK. -/
def Obligations.DisposeAllCommits : Prop :=
  ∀ s : State,
    let off := s.led.map fun e => (⟨e.level, 0#8, 0#8, 0#8⟩ : LedEntry)
    let lo := (enc s.params 0x20#8).extractLsb' 0 8
    let hi := (enc s.params 0x20#8).extractLsb' 8 8
    let ledEvents := if s.ledState = .released then 0 else 815
    (∀ e, s.ledState ≠ .released →
      (flushEvents off ++ [⟨.data, .z⟩, ⟨.clk, .z⟩, ⟨.cs, .z⟩])[s.latch.pos]? = some e →
      exec .disposeAll s = .next (emitPin e s)) ∧
    (s.segState = .ready → s.latch.pos = ledEvents →
      exec .disposeAll s =
        .next (emitWrite (Config.segAddr s.params) [0x00#8, lo, hi, lo, hi, lo, hi, lo, hi] s)) ∧
    (ledEvents + (if s.segState = .ready then 1 else 0) ≤ s.latch.pos →
      exec .disposeAll s = .next { s with
        led := if s.ledState = .released then s.led else off
        ledState := .released
        calValid := if s.envState = .released then s.calValid else false
        envState := .released
        frame := if s.segState = .ready then Vector.replicate 4 (enc s.params 0x20#8) else s.frame
        segState := .released
        code := .ok, latch := { s.latch with busy := false } })

/-- 43_system.md R244: the whole run of an accepted `dispose.all`, whatever the three engines' readiness: the off-frame and
the three Z writes unless LED is RELEASED, then the blank frame write if SEG is READY, then the completion with all
three RELEASED. The order: unless LED is RELEASED, each of the first 815 steps adds its pin event and no bus event, so the
pin events all come before the frame write. With LED and SEG READY that is 817 sequencer steps; with all three RELEASED it is one step with no
event. The counts are the spec's own inference (70_reset_and_hazards.md R301). -/
def Obligations.DisposeAllRunsInOrder : Prop :=
  ∀ s : State, Accepted .disposeAll s →
    let off := s.led.map fun e => (⟨e.level, 0#8, 0#8, 0#8⟩ : LedEntry)
    let lo := (enc s.params 0x20#8).extractLsb' 0 8
    let hi := (enc s.params 0x20#8).extractLsb' 8 8
    let ledEvents : List PinEvent := flushEvents off ++ [⟨.data, .z⟩, ⟨.clk, .z⟩, ⟨.cs, .z⟩]
    let events := (if s.ledState = .released then 0 else 815) + (if s.segState = .ready then 1 else 0)
    (s.ledState ≠ .released → ∀ k, k ≤ 815 → ∃ u, runSteps k s = .next u ∧ u.latch.busy = true ∧
      u.pinTrace = s.pinTrace ++ ledEvents.take k ∧
      u.busTrace = s.busTrace) ∧
    runSteps (events + 1) s = .next { s with
      led := if s.ledState = .released then s.led else off
      ledState := .released
      calValid := if s.envState = .released then s.calValid else false
      envState := .released
      frame := if s.segState = .ready then Vector.replicate 4 (enc s.params 0x20#8) else s.frame
      segState := .released
      pins := if s.ledState = .released then s.pins else ⟨.z, .z, .z⟩
      pinTrace := s.pinTrace ++ (if s.ledState = .released then [] else ledEvents)
      busTrace := s.busTrace ++
        (if s.segState = .ready then [.write (Config.segAddr s.params) [0x00#8, lo, hi, lo, hi, lo, hi, lo, hi]] else [])
      code := .ok, latch := { s.latch with busy := false, pos := events } }

/-! ## Host programs -/

/-- 30_encoding.md R100, R101: the words of the commands with operands, the accesses each statement stands for, in order,
that a command operand beyond 255 is refused, that `seg.text` packs its first four codes low byte first and still
expands when longer, and that the write `clr` stands for clears every sticky flag.
`wait` is the one turn that StepRunsDecodedCommand gives its steps (log 14). What the assembler refuses is spelled
out in log 27. -/
def Obligations.PseudoInstructionsExpand : Prop :=
  (∀ i, i < 256 → encode (.ledSet i) = BitVec.ofNat 32 (0x01 + 256 * i) ∧ encode (.ledOn i) = BitVec.ofNat 32 (0x02 + 256 * i) ∧
    encode (.ledOff i) = BitVec.ofNat 32 (0x03 + 256 * i) ∧ encode (.segShow i .left) = BitVec.ofNat 32 (0x21 + 256 * i) ∧
    encode (.segShow i .right) = BitVec.ofNat 32 (0x10021 + 256 * i)) ∧
  (∀ i : Instr, expand (.command i) = if i.wellFormed then some [.host (.write 0x00#8 4 (encode i))] else none) ∧
  (∀ (off : Byte) (v : Word), expand (.wr off v) = some [.host (.write off 4 v)] ∧
    expand (.rd off) = some [.host (.read off 4)]) ∧
  expand .wait = some [.wait] ∧
  (∀ (i : Nat) (c q : Word), i < 256 →
    expand (.ledRgb i c q) = some [.host (.write 0x04#8 4 c), .host (.write 0x08#8 4 q),
      .host (.write 0x00#8 4 (BitVec.ofNat 32 (0x01 + 256 * i)))]) ∧
  (∀ (i : Nat) (c q : Word), 256 ≤ i → expand (.ledRgb i c q) = none) ∧
  (∀ c q : Word, expand (.ledRgbAll c q) = some [.host (.write 0x04#8 4 c), .host (.write 0x08#8 4 q),
      .host (.write 0x00#8 4 0x00010001#32)]) ∧
  (∀ (codes : List Byte) (a : Align), codes.length < 256 →
    expand (.segText codes a) = some [.host (.write 0x04#8 4 (packText codes)),
      .host (.write 0x00#8 4 (encode (.segShow codes.length a)))]) ∧
  (∀ (codes : List Byte) (j : Nat), j < 4 → (packText codes).extractLsb' (8 * j) 8 = codes.getD j 0x00#8) ∧
  expand (.wt true) = some [.host (.write 0x1C#8 4 1#32)] ∧ expand (.wt false) = some [.host (.write 0x1C#8 4 0#32)] ∧
  expand .clr = some [.host (.write 0x0C#8 4 0x00007F00#32)] ∧
  (∀ s : State, hostAccess (.write 0x0C#8 4 0x00007F00#32) s = .next { s with sticky := 0#7 })
end

