-- ==== Sys2Proof/Laws/State.lean ====
section
/-!
SUPPORT. One lemma per field per named update of the state, each true by rfl, so that no later proof unfolds a record update.
-/
namespace Sys2Proof.Machine

/-! ### accept -/

@[simp] theorem accept_arg0 (w : Word) (s : State) : (accept w s).arg0 = s.arg0 := rfl
@[simp] theorem accept_arg1 (w : Word) (s : State) : (accept w s).arg1 = s.arg1 := rfl
@[simp] theorem accept_result0 (w : Word) (s : State) : (accept w s).result0 = s.result0 := rfl
@[simp] theorem accept_result1 (w : Word) (s : State) : (accept w s).result1 = s.result1 := rfl
@[simp] theorem accept_result2 (w : Word) (s : State) : (accept w s).result2 = s.result2 := rfl
@[simp] theorem accept_code (w : Word) (s : State) : (accept w s).code = s.code := rfl
@[simp] theorem accept_sticky (w : Word) (s : State) : (accept w s).sticky = s.sticky := rfl
@[simp] theorem accept_ctrlWt (w : Word) (s : State) : (accept w s).ctrlWt = s.ctrlWt := rfl
@[simp] theorem accept_ledState (w : Word) (s : State) : (accept w s).ledState = s.ledState := rfl
@[simp] theorem accept_envState (w : Word) (s : State) : (accept w s).envState = s.envState := rfl
@[simp] theorem accept_segState (w : Word) (s : State) : (accept w s).segState = s.segState := rfl
@[simp] theorem accept_led (w : Word) (s : State) : (accept w s).led = s.led := rfl
@[simp] theorem accept_coef (w : Word) (s : State) : (accept w s).coef = s.coef := rfl
@[simp] theorem accept_calValid (w : Word) (s : State) : (accept w s).calValid = s.calValid := rfl
@[simp] theorem accept_frame (w : Word) (s : State) : (accept w s).frame = s.frame := rfl
@[simp] theorem accept_pins (w : Word) (s : State) : (accept w s).pins = s.pins := rfl
@[simp] theorem accept_latch (w : Word) (s : State) : (accept w s).latch = { busy := true, op := w, a0 := s.arg0, a1 := s.arg1, wt := s.ctrlWt, pos := 0, rx := [] } := rfl
@[simp] theorem accept_pinTrace (w : Word) (s : State) : (accept w s).pinTrace = s.pinTrace := rfl
@[simp] theorem accept_busTrace (w : Word) (s : State) : (accept w s).busTrace = s.busTrace := rfl
@[simp] theorem accept_pinPast (w : Word) (s : State) : (accept w s).pinPast = s.pinPast := rfl
@[simp] theorem accept_busPast (w : Word) (s : State) : (accept w s).busPast = s.busPast := rfl
@[simp] theorem accept_script (w : Word) (s : State) : (accept w s).script = s.script := rfl
@[simp] theorem accept_hostReads (w : Word) (s : State) : (accept w s).hostReads = s.hostReads := rfl
@[simp] theorem accept_ackTape (w : Word) (s : State) : (accept w s).ackTape = s.ackTape := rfl
@[simp] theorem accept_byteTape (w : Word) (s : State) : (accept w s).byteTape = s.byteTape := rfl
@[simp] theorem accept_ackDraws (w : Word) (s : State) : (accept w s).ackDraws = s.ackDraws := rfl
@[simp] theorem accept_byteDraws (w : Word) (s : State) : (accept w s).byteDraws = s.byteDraws := rfl
@[simp] theorem accept_params (w : Word) (s : State) : (accept w s).params = s.params := rfl

/-! ### finish -/

@[simp] theorem finish_arg0 (c : Code) (s : State) : (finish c s).arg0 = s.arg0 := rfl
@[simp] theorem finish_arg1 (c : Code) (s : State) : (finish c s).arg1 = s.arg1 := rfl
@[simp] theorem finish_result0 (c : Code) (s : State) : (finish c s).result0 = s.result0 := rfl
@[simp] theorem finish_result1 (c : Code) (s : State) : (finish c s).result1 = s.result1 := rfl
@[simp] theorem finish_result2 (c : Code) (s : State) : (finish c s).result2 = s.result2 := rfl
@[simp] theorem finish_code (c : Code) (s : State) : (finish c s).code = c := rfl
@[simp] theorem finish_sticky (c : Code) (s : State) : (finish c s).sticky = stickyAfter 0#7 (codeFlag c) s.sticky := rfl
@[simp] theorem finish_ctrlWt (c : Code) (s : State) : (finish c s).ctrlWt = s.ctrlWt := rfl
@[simp] theorem finish_ledState (c : Code) (s : State) : (finish c s).ledState = s.ledState := rfl
@[simp] theorem finish_envState (c : Code) (s : State) : (finish c s).envState = s.envState := rfl
@[simp] theorem finish_segState (c : Code) (s : State) : (finish c s).segState = s.segState := rfl
@[simp] theorem finish_led (c : Code) (s : State) : (finish c s).led = s.led := rfl
@[simp] theorem finish_coef (c : Code) (s : State) : (finish c s).coef = s.coef := rfl
@[simp] theorem finish_calValid (c : Code) (s : State) : (finish c s).calValid = s.calValid := rfl
@[simp] theorem finish_frame (c : Code) (s : State) : (finish c s).frame = s.frame := rfl
@[simp] theorem finish_pins (c : Code) (s : State) : (finish c s).pins = s.pins := rfl
@[simp] theorem finish_latch (c : Code) (s : State) : (finish c s).latch = { s.latch with busy := false } := rfl
@[simp] theorem finish_pinTrace (c : Code) (s : State) : (finish c s).pinTrace = s.pinTrace := rfl
@[simp] theorem finish_busTrace (c : Code) (s : State) : (finish c s).busTrace = s.busTrace := rfl
@[simp] theorem finish_pinPast (c : Code) (s : State) : (finish c s).pinPast = s.pinPast := rfl
@[simp] theorem finish_busPast (c : Code) (s : State) : (finish c s).busPast = s.busPast := rfl
@[simp] theorem finish_script (c : Code) (s : State) : (finish c s).script = s.script := rfl
@[simp] theorem finish_hostReads (c : Code) (s : State) : (finish c s).hostReads = s.hostReads := rfl
@[simp] theorem finish_ackTape (c : Code) (s : State) : (finish c s).ackTape = s.ackTape := rfl
@[simp] theorem finish_byteTape (c : Code) (s : State) : (finish c s).byteTape = s.byteTape := rfl
@[simp] theorem finish_ackDraws (c : Code) (s : State) : (finish c s).ackDraws = s.ackDraws := rfl
@[simp] theorem finish_byteDraws (c : Code) (s : State) : (finish c s).byteDraws = s.byteDraws := rfl
@[simp] theorem finish_params (c : Code) (s : State) : (finish c s).params = s.params := rfl

/-! ### emitPin -/

@[simp] theorem emitPin_arg0 (e : PinEvent) (s : State) : (emitPin e s).arg0 = s.arg0 := rfl
@[simp] theorem emitPin_arg1 (e : PinEvent) (s : State) : (emitPin e s).arg1 = s.arg1 := rfl
@[simp] theorem emitPin_result0 (e : PinEvent) (s : State) : (emitPin e s).result0 = s.result0 := rfl
@[simp] theorem emitPin_result1 (e : PinEvent) (s : State) : (emitPin e s).result1 = s.result1 := rfl
@[simp] theorem emitPin_result2 (e : PinEvent) (s : State) : (emitPin e s).result2 = s.result2 := rfl
@[simp] theorem emitPin_code (e : PinEvent) (s : State) : (emitPin e s).code = s.code := rfl
@[simp] theorem emitPin_sticky (e : PinEvent) (s : State) : (emitPin e s).sticky = s.sticky := rfl
@[simp] theorem emitPin_ctrlWt (e : PinEvent) (s : State) : (emitPin e s).ctrlWt = s.ctrlWt := rfl
@[simp] theorem emitPin_ledState (e : PinEvent) (s : State) : (emitPin e s).ledState = s.ledState := rfl
@[simp] theorem emitPin_envState (e : PinEvent) (s : State) : (emitPin e s).envState = s.envState := rfl
@[simp] theorem emitPin_segState (e : PinEvent) (s : State) : (emitPin e s).segState = s.segState := rfl
@[simp] theorem emitPin_led (e : PinEvent) (s : State) : (emitPin e s).led = s.led := rfl
@[simp] theorem emitPin_coef (e : PinEvent) (s : State) : (emitPin e s).coef = s.coef := rfl
@[simp] theorem emitPin_calValid (e : PinEvent) (s : State) : (emitPin e s).calValid = s.calValid := rfl
@[simp] theorem emitPin_frame (e : PinEvent) (s : State) : (emitPin e s).frame = s.frame := rfl
@[simp] theorem emitPin_pins (e : PinEvent) (s : State) : (emitPin e s).pins = drive e s.pins := rfl
@[simp] theorem emitPin_latch (e : PinEvent) (s : State) : (emitPin e s).latch = { s.latch with pos := s.latch.pos + 1 } := rfl
@[simp] theorem emitPin_pinTrace (e : PinEvent) (s : State) : (emitPin e s).pinTrace = s.pinTrace ++ [e] := rfl
@[simp] theorem emitPin_busTrace (e : PinEvent) (s : State) : (emitPin e s).busTrace = s.busTrace := rfl
@[simp] theorem emitPin_pinPast (e : PinEvent) (s : State) : (emitPin e s).pinPast = s.pinPast := rfl
@[simp] theorem emitPin_busPast (e : PinEvent) (s : State) : (emitPin e s).busPast = s.busPast := rfl
@[simp] theorem emitPin_script (e : PinEvent) (s : State) : (emitPin e s).script = s.script := rfl
@[simp] theorem emitPin_hostReads (e : PinEvent) (s : State) : (emitPin e s).hostReads = s.hostReads := rfl
@[simp] theorem emitPin_ackTape (e : PinEvent) (s : State) : (emitPin e s).ackTape = s.ackTape := rfl
@[simp] theorem emitPin_byteTape (e : PinEvent) (s : State) : (emitPin e s).byteTape = s.byteTape := rfl
@[simp] theorem emitPin_ackDraws (e : PinEvent) (s : State) : (emitPin e s).ackDraws = s.ackDraws := rfl
@[simp] theorem emitPin_byteDraws (e : PinEvent) (s : State) : (emitPin e s).byteDraws = s.byteDraws := rfl
@[simp] theorem emitPin_params (e : PinEvent) (s : State) : (emitPin e s).params = s.params := rfl

/-! ### emitProbe -/

@[simp] theorem emitProbe_arg0 (a : BusAddr) (s : State) : (emitProbe a s).arg0 = s.arg0 := rfl
@[simp] theorem emitProbe_arg1 (a : BusAddr) (s : State) : (emitProbe a s).arg1 = s.arg1 := rfl
@[simp] theorem emitProbe_result0 (a : BusAddr) (s : State) : (emitProbe a s).result0 = s.result0 := rfl
@[simp] theorem emitProbe_result1 (a : BusAddr) (s : State) : (emitProbe a s).result1 = s.result1 := rfl
@[simp] theorem emitProbe_result2 (a : BusAddr) (s : State) : (emitProbe a s).result2 = s.result2 := rfl
@[simp] theorem emitProbe_code (a : BusAddr) (s : State) : (emitProbe a s).code = s.code := rfl
@[simp] theorem emitProbe_sticky (a : BusAddr) (s : State) : (emitProbe a s).sticky = s.sticky := rfl
@[simp] theorem emitProbe_ctrlWt (a : BusAddr) (s : State) : (emitProbe a s).ctrlWt = s.ctrlWt := rfl
@[simp] theorem emitProbe_ledState (a : BusAddr) (s : State) : (emitProbe a s).ledState = s.ledState := rfl
@[simp] theorem emitProbe_envState (a : BusAddr) (s : State) : (emitProbe a s).envState = s.envState := rfl
@[simp] theorem emitProbe_segState (a : BusAddr) (s : State) : (emitProbe a s).segState = s.segState := rfl
@[simp] theorem emitProbe_led (a : BusAddr) (s : State) : (emitProbe a s).led = s.led := rfl
@[simp] theorem emitProbe_coef (a : BusAddr) (s : State) : (emitProbe a s).coef = s.coef := rfl
@[simp] theorem emitProbe_calValid (a : BusAddr) (s : State) : (emitProbe a s).calValid = s.calValid := rfl
@[simp] theorem emitProbe_frame (a : BusAddr) (s : State) : (emitProbe a s).frame = s.frame := rfl
@[simp] theorem emitProbe_pins (a : BusAddr) (s : State) : (emitProbe a s).pins = s.pins := rfl
@[simp] theorem emitProbe_latch (a : BusAddr) (s : State) : (emitProbe a s).latch = { s.latch with pos := s.latch.pos + 1, rx := s.latch.rx ++ [.ack (nextAck s)] } := rfl
@[simp] theorem emitProbe_pinTrace (a : BusAddr) (s : State) : (emitProbe a s).pinTrace = s.pinTrace := rfl
@[simp] theorem emitProbe_busTrace (a : BusAddr) (s : State) : (emitProbe a s).busTrace = s.busTrace ++ [.probe a (nextAck s)] := rfl
@[simp] theorem emitProbe_pinPast (a : BusAddr) (s : State) : (emitProbe a s).pinPast = s.pinPast := rfl
@[simp] theorem emitProbe_busPast (a : BusAddr) (s : State) : (emitProbe a s).busPast = s.busPast := rfl
@[simp] theorem emitProbe_script (a : BusAddr) (s : State) : (emitProbe a s).script = s.script := rfl
@[simp] theorem emitProbe_hostReads (a : BusAddr) (s : State) : (emitProbe a s).hostReads = s.hostReads := rfl
@[simp] theorem emitProbe_ackTape (a : BusAddr) (s : State) : (emitProbe a s).ackTape = s.ackTape.drop 1 := rfl
@[simp] theorem emitProbe_byteTape (a : BusAddr) (s : State) : (emitProbe a s).byteTape = s.byteTape := rfl
@[simp] theorem emitProbe_ackDraws (a : BusAddr) (s : State) : (emitProbe a s).ackDraws = s.ackDraws + (1 - s.ackTape.length) := rfl
@[simp] theorem emitProbe_byteDraws (a : BusAddr) (s : State) : (emitProbe a s).byteDraws = s.byteDraws := rfl
@[simp] theorem emitProbe_params (a : BusAddr) (s : State) : (emitProbe a s).params = s.params := rfl

/-! ### emitRead -/

@[simp] theorem emitRead_arg0 (a : BusAddr) (r : Byte) (n : Nat) (s : State) : (emitRead a r n s).arg0 = s.arg0 := rfl
@[simp] theorem emitRead_arg1 (a : BusAddr) (r : Byte) (n : Nat) (s : State) : (emitRead a r n s).arg1 = s.arg1 := rfl
@[simp] theorem emitRead_result0 (a : BusAddr) (r : Byte) (n : Nat) (s : State) : (emitRead a r n s).result0 = s.result0 := rfl
@[simp] theorem emitRead_result1 (a : BusAddr) (r : Byte) (n : Nat) (s : State) : (emitRead a r n s).result1 = s.result1 := rfl
@[simp] theorem emitRead_result2 (a : BusAddr) (r : Byte) (n : Nat) (s : State) : (emitRead a r n s).result2 = s.result2 := rfl
@[simp] theorem emitRead_code (a : BusAddr) (r : Byte) (n : Nat) (s : State) : (emitRead a r n s).code = s.code := rfl
@[simp] theorem emitRead_sticky (a : BusAddr) (r : Byte) (n : Nat) (s : State) : (emitRead a r n s).sticky = s.sticky := rfl
@[simp] theorem emitRead_ctrlWt (a : BusAddr) (r : Byte) (n : Nat) (s : State) : (emitRead a r n s).ctrlWt = s.ctrlWt := rfl
@[simp] theorem emitRead_ledState (a : BusAddr) (r : Byte) (n : Nat) (s : State) : (emitRead a r n s).ledState = s.ledState := rfl
@[simp] theorem emitRead_envState (a : BusAddr) (r : Byte) (n : Nat) (s : State) : (emitRead a r n s).envState = s.envState := rfl
@[simp] theorem emitRead_segState (a : BusAddr) (r : Byte) (n : Nat) (s : State) : (emitRead a r n s).segState = s.segState := rfl
@[simp] theorem emitRead_led (a : BusAddr) (r : Byte) (n : Nat) (s : State) : (emitRead a r n s).led = s.led := rfl
@[simp] theorem emitRead_coef (a : BusAddr) (r : Byte) (n : Nat) (s : State) : (emitRead a r n s).coef = s.coef := rfl
@[simp] theorem emitRead_calValid (a : BusAddr) (r : Byte) (n : Nat) (s : State) : (emitRead a r n s).calValid = s.calValid := rfl
@[simp] theorem emitRead_frame (a : BusAddr) (r : Byte) (n : Nat) (s : State) : (emitRead a r n s).frame = s.frame := rfl
@[simp] theorem emitRead_pins (a : BusAddr) (r : Byte) (n : Nat) (s : State) : (emitRead a r n s).pins = s.pins := rfl
@[simp] theorem emitRead_latch (a : BusAddr) (r : Byte) (n : Nat) (s : State) : (emitRead a r n s).latch = { s.latch with pos := s.latch.pos + 1, rx := s.latch.rx ++ [.bytes (nextBytes s n)] } := rfl
@[simp] theorem emitRead_pinTrace (a : BusAddr) (r : Byte) (n : Nat) (s : State) : (emitRead a r n s).pinTrace = s.pinTrace := rfl
@[simp] theorem emitRead_busTrace (a : BusAddr) (r : Byte) (n : Nat) (s : State) : (emitRead a r n s).busTrace = s.busTrace ++ [.read a r (nextBytes s n)] := rfl
@[simp] theorem emitRead_pinPast (a : BusAddr) (r : Byte) (n : Nat) (s : State) : (emitRead a r n s).pinPast = s.pinPast := rfl
@[simp] theorem emitRead_busPast (a : BusAddr) (r : Byte) (n : Nat) (s : State) : (emitRead a r n s).busPast = s.busPast := rfl
@[simp] theorem emitRead_script (a : BusAddr) (r : Byte) (n : Nat) (s : State) : (emitRead a r n s).script = s.script := rfl
@[simp] theorem emitRead_hostReads (a : BusAddr) (r : Byte) (n : Nat) (s : State) : (emitRead a r n s).hostReads = s.hostReads := rfl
@[simp] theorem emitRead_ackTape (a : BusAddr) (r : Byte) (n : Nat) (s : State) : (emitRead a r n s).ackTape = s.ackTape := rfl
@[simp] theorem emitRead_byteTape (a : BusAddr) (r : Byte) (n : Nat) (s : State) : (emitRead a r n s).byteTape = s.byteTape.drop n := rfl
@[simp] theorem emitRead_ackDraws (a : BusAddr) (r : Byte) (n : Nat) (s : State) : (emitRead a r n s).ackDraws = s.ackDraws := rfl
@[simp] theorem emitRead_byteDraws (a : BusAddr) (r : Byte) (n : Nat) (s : State) : (emitRead a r n s).byteDraws = s.byteDraws + (n - s.byteTape.length) := rfl
@[simp] theorem emitRead_params (a : BusAddr) (r : Byte) (n : Nat) (s : State) : (emitRead a r n s).params = s.params := rfl

/-! ### emitWrite -/

@[simp] theorem emitWrite_arg0 (a : BusAddr) (b : List Byte) (s : State) : (emitWrite a b s).arg0 = s.arg0 := rfl
@[simp] theorem emitWrite_arg1 (a : BusAddr) (b : List Byte) (s : State) : (emitWrite a b s).arg1 = s.arg1 := rfl
@[simp] theorem emitWrite_result0 (a : BusAddr) (b : List Byte) (s : State) : (emitWrite a b s).result0 = s.result0 := rfl
@[simp] theorem emitWrite_result1 (a : BusAddr) (b : List Byte) (s : State) : (emitWrite a b s).result1 = s.result1 := rfl
@[simp] theorem emitWrite_result2 (a : BusAddr) (b : List Byte) (s : State) : (emitWrite a b s).result2 = s.result2 := rfl
@[simp] theorem emitWrite_code (a : BusAddr) (b : List Byte) (s : State) : (emitWrite a b s).code = s.code := rfl
@[simp] theorem emitWrite_sticky (a : BusAddr) (b : List Byte) (s : State) : (emitWrite a b s).sticky = s.sticky := rfl
@[simp] theorem emitWrite_ctrlWt (a : BusAddr) (b : List Byte) (s : State) : (emitWrite a b s).ctrlWt = s.ctrlWt := rfl
@[simp] theorem emitWrite_ledState (a : BusAddr) (b : List Byte) (s : State) : (emitWrite a b s).ledState = s.ledState := rfl
@[simp] theorem emitWrite_envState (a : BusAddr) (b : List Byte) (s : State) : (emitWrite a b s).envState = s.envState := rfl
@[simp] theorem emitWrite_segState (a : BusAddr) (b : List Byte) (s : State) : (emitWrite a b s).segState = s.segState := rfl
@[simp] theorem emitWrite_led (a : BusAddr) (b : List Byte) (s : State) : (emitWrite a b s).led = s.led := rfl
@[simp] theorem emitWrite_coef (a : BusAddr) (b : List Byte) (s : State) : (emitWrite a b s).coef = s.coef := rfl
@[simp] theorem emitWrite_calValid (a : BusAddr) (b : List Byte) (s : State) : (emitWrite a b s).calValid = s.calValid := rfl
@[simp] theorem emitWrite_frame (a : BusAddr) (b : List Byte) (s : State) : (emitWrite a b s).frame = s.frame := rfl
@[simp] theorem emitWrite_pins (a : BusAddr) (b : List Byte) (s : State) : (emitWrite a b s).pins = s.pins := rfl
@[simp] theorem emitWrite_latch (a : BusAddr) (b : List Byte) (s : State) : (emitWrite a b s).latch = { s.latch with pos := s.latch.pos + 1 } := rfl
@[simp] theorem emitWrite_pinTrace (a : BusAddr) (b : List Byte) (s : State) : (emitWrite a b s).pinTrace = s.pinTrace := rfl
@[simp] theorem emitWrite_busTrace (a : BusAddr) (b : List Byte) (s : State) : (emitWrite a b s).busTrace = s.busTrace ++ [.write a b] := rfl
@[simp] theorem emitWrite_pinPast (a : BusAddr) (b : List Byte) (s : State) : (emitWrite a b s).pinPast = s.pinPast := rfl
@[simp] theorem emitWrite_busPast (a : BusAddr) (b : List Byte) (s : State) : (emitWrite a b s).busPast = s.busPast := rfl
@[simp] theorem emitWrite_script (a : BusAddr) (b : List Byte) (s : State) : (emitWrite a b s).script = s.script := rfl
@[simp] theorem emitWrite_hostReads (a : BusAddr) (b : List Byte) (s : State) : (emitWrite a b s).hostReads = s.hostReads := rfl
@[simp] theorem emitWrite_ackTape (a : BusAddr) (b : List Byte) (s : State) : (emitWrite a b s).ackTape = s.ackTape := rfl
@[simp] theorem emitWrite_byteTape (a : BusAddr) (b : List Byte) (s : State) : (emitWrite a b s).byteTape = s.byteTape := rfl
@[simp] theorem emitWrite_ackDraws (a : BusAddr) (b : List Byte) (s : State) : (emitWrite a b s).ackDraws = s.ackDraws := rfl
@[simp] theorem emitWrite_byteDraws (a : BusAddr) (b : List Byte) (s : State) : (emitWrite a b s).byteDraws = s.byteDraws := rfl
@[simp] theorem emitWrite_params (a : BusAddr) (b : List Byte) (s : State) : (emitWrite a b s).params = s.params := rfl

/-! ### setResults -/

@[simp] theorem setResults_arg0 (x y z : Word) (s : State) : (setResults x y z s).arg0 = s.arg0 := rfl
@[simp] theorem setResults_arg1 (x y z : Word) (s : State) : (setResults x y z s).arg1 = s.arg1 := rfl
@[simp] theorem setResults_result0 (x y z : Word) (s : State) : (setResults x y z s).result0 = x := rfl
@[simp] theorem setResults_result1 (x y z : Word) (s : State) : (setResults x y z s).result1 = y := rfl
@[simp] theorem setResults_result2 (x y z : Word) (s : State) : (setResults x y z s).result2 = z := rfl
@[simp] theorem setResults_code (x y z : Word) (s : State) : (setResults x y z s).code = s.code := rfl
@[simp] theorem setResults_sticky (x y z : Word) (s : State) : (setResults x y z s).sticky = s.sticky := rfl
@[simp] theorem setResults_ctrlWt (x y z : Word) (s : State) : (setResults x y z s).ctrlWt = s.ctrlWt := rfl
@[simp] theorem setResults_ledState (x y z : Word) (s : State) : (setResults x y z s).ledState = s.ledState := rfl
@[simp] theorem setResults_envState (x y z : Word) (s : State) : (setResults x y z s).envState = s.envState := rfl
@[simp] theorem setResults_segState (x y z : Word) (s : State) : (setResults x y z s).segState = s.segState := rfl
@[simp] theorem setResults_led (x y z : Word) (s : State) : (setResults x y z s).led = s.led := rfl
@[simp] theorem setResults_coef (x y z : Word) (s : State) : (setResults x y z s).coef = s.coef := rfl
@[simp] theorem setResults_calValid (x y z : Word) (s : State) : (setResults x y z s).calValid = s.calValid := rfl
@[simp] theorem setResults_frame (x y z : Word) (s : State) : (setResults x y z s).frame = s.frame := rfl
@[simp] theorem setResults_pins (x y z : Word) (s : State) : (setResults x y z s).pins = s.pins := rfl
@[simp] theorem setResults_latch (x y z : Word) (s : State) : (setResults x y z s).latch = s.latch := rfl
@[simp] theorem setResults_pinTrace (x y z : Word) (s : State) : (setResults x y z s).pinTrace = s.pinTrace := rfl
@[simp] theorem setResults_busTrace (x y z : Word) (s : State) : (setResults x y z s).busTrace = s.busTrace := rfl
@[simp] theorem setResults_pinPast (x y z : Word) (s : State) : (setResults x y z s).pinPast = s.pinPast := rfl
@[simp] theorem setResults_busPast (x y z : Word) (s : State) : (setResults x y z s).busPast = s.busPast := rfl
@[simp] theorem setResults_script (x y z : Word) (s : State) : (setResults x y z s).script = s.script := rfl
@[simp] theorem setResults_hostReads (x y z : Word) (s : State) : (setResults x y z s).hostReads = s.hostReads := rfl
@[simp] theorem setResults_ackTape (x y z : Word) (s : State) : (setResults x y z s).ackTape = s.ackTape := rfl
@[simp] theorem setResults_byteTape (x y z : Word) (s : State) : (setResults x y z s).byteTape = s.byteTape := rfl
@[simp] theorem setResults_ackDraws (x y z : Word) (s : State) : (setResults x y z s).ackDraws = s.ackDraws := rfl
@[simp] theorem setResults_byteDraws (x y z : Word) (s : State) : (setResults x y z s).byteDraws = s.byteDraws := rfl
@[simp] theorem setResults_params (x y z : Word) (s : State) : (setResults x y z s).params = s.params := rfl

/-! ### placeCommand -/

@[simp] theorem placeCommand_arg0 (w : Word) (s : State) : (placeCommand w s).arg0 = s.arg0 := rfl
@[simp] theorem placeCommand_arg1 (w : Word) (s : State) : (placeCommand w s).arg1 = s.arg1 := rfl
@[simp] theorem placeCommand_result0 (w : Word) (s : State) : (placeCommand w s).result0 = s.result0 := rfl
@[simp] theorem placeCommand_result1 (w : Word) (s : State) : (placeCommand w s).result1 = s.result1 := rfl
@[simp] theorem placeCommand_result2 (w : Word) (s : State) : (placeCommand w s).result2 = s.result2 := rfl
@[simp] theorem placeCommand_code (w : Word) (s : State) : (placeCommand w s).code = s.code := rfl
@[simp] theorem placeCommand_sticky (w : Word) (s : State) : (placeCommand w s).sticky = s.sticky := rfl
@[simp] theorem placeCommand_ctrlWt (w : Word) (s : State) : (placeCommand w s).ctrlWt = s.ctrlWt := rfl
@[simp] theorem placeCommand_ledState (w : Word) (s : State) : (placeCommand w s).ledState = s.ledState := rfl
@[simp] theorem placeCommand_envState (w : Word) (s : State) : (placeCommand w s).envState = s.envState := rfl
@[simp] theorem placeCommand_segState (w : Word) (s : State) : (placeCommand w s).segState = s.segState := rfl
@[simp] theorem placeCommand_led (w : Word) (s : State) : (placeCommand w s).led = s.led := rfl
@[simp] theorem placeCommand_coef (w : Word) (s : State) : (placeCommand w s).coef = s.coef := rfl
@[simp] theorem placeCommand_calValid (w : Word) (s : State) : (placeCommand w s).calValid = s.calValid := rfl
@[simp] theorem placeCommand_frame (w : Word) (s : State) : (placeCommand w s).frame = s.frame := rfl
@[simp] theorem placeCommand_pins (w : Word) (s : State) : (placeCommand w s).pins = s.pins := rfl
@[simp] theorem placeCommand_latch (w : Word) (s : State) : (placeCommand w s).latch = (accept w s).latch := rfl
@[simp] theorem placeCommand_pinTrace (w : Word) (s : State) : (placeCommand w s).pinTrace = s.pinTrace := rfl
@[simp] theorem placeCommand_busTrace (w : Word) (s : State) : (placeCommand w s).busTrace = s.busTrace := rfl
@[simp] theorem placeCommand_pinPast (w : Word) (s : State) : (placeCommand w s).pinPast = s.pinPast := rfl
@[simp] theorem placeCommand_busPast (w : Word) (s : State) : (placeCommand w s).busPast = s.busPast := rfl
@[simp] theorem placeCommand_script (w : Word) (s : State) : (placeCommand w s).script = [] := rfl
@[simp] theorem placeCommand_hostReads (w : Word) (s : State) : (placeCommand w s).hostReads = s.hostReads := rfl
@[simp] theorem placeCommand_ackTape (w : Word) (s : State) : (placeCommand w s).ackTape = s.ackTape := rfl
@[simp] theorem placeCommand_byteTape (w : Word) (s : State) : (placeCommand w s).byteTape = s.byteTape := rfl
@[simp] theorem placeCommand_ackDraws (w : Word) (s : State) : (placeCommand w s).ackDraws = s.ackDraws := rfl
@[simp] theorem placeCommand_byteDraws (w : Word) (s : State) : (placeCommand w s).byteDraws = s.byteDraws := rfl
@[simp] theorem placeCommand_params (w : Word) (s : State) : (placeCommand w s).params = s.params := rfl

/-! ### ledDisposeCommit -/

@[simp] theorem ledDisposeCommit_arg0 (arr : Vector LedEntry 7) (s : State) : (ledDisposeCommit arr s).arg0 = s.arg0 := rfl
@[simp] theorem ledDisposeCommit_arg1 (arr : Vector LedEntry 7) (s : State) : (ledDisposeCommit arr s).arg1 = s.arg1 := rfl
@[simp] theorem ledDisposeCommit_result0 (arr : Vector LedEntry 7) (s : State) : (ledDisposeCommit arr s).result0 = s.result0 := rfl
@[simp] theorem ledDisposeCommit_result1 (arr : Vector LedEntry 7) (s : State) : (ledDisposeCommit arr s).result1 = s.result1 := rfl
@[simp] theorem ledDisposeCommit_result2 (arr : Vector LedEntry 7) (s : State) : (ledDisposeCommit arr s).result2 = s.result2 := rfl
@[simp] theorem ledDisposeCommit_code (arr : Vector LedEntry 7) (s : State) : (ledDisposeCommit arr s).code = s.code := rfl
@[simp] theorem ledDisposeCommit_sticky (arr : Vector LedEntry 7) (s : State) : (ledDisposeCommit arr s).sticky = s.sticky := rfl
@[simp] theorem ledDisposeCommit_ctrlWt (arr : Vector LedEntry 7) (s : State) : (ledDisposeCommit arr s).ctrlWt = s.ctrlWt := rfl
@[simp] theorem ledDisposeCommit_ledState (arr : Vector LedEntry 7) (s : State) : (ledDisposeCommit arr s).ledState = .released := rfl
@[simp] theorem ledDisposeCommit_envState (arr : Vector LedEntry 7) (s : State) : (ledDisposeCommit arr s).envState = s.envState := rfl
@[simp] theorem ledDisposeCommit_segState (arr : Vector LedEntry 7) (s : State) : (ledDisposeCommit arr s).segState = s.segState := rfl
@[simp] theorem ledDisposeCommit_led (arr : Vector LedEntry 7) (s : State) : (ledDisposeCommit arr s).led = allOff arr := rfl
@[simp] theorem ledDisposeCommit_coef (arr : Vector LedEntry 7) (s : State) : (ledDisposeCommit arr s).coef = s.coef := rfl
@[simp] theorem ledDisposeCommit_calValid (arr : Vector LedEntry 7) (s : State) : (ledDisposeCommit arr s).calValid = s.calValid := rfl
@[simp] theorem ledDisposeCommit_frame (arr : Vector LedEntry 7) (s : State) : (ledDisposeCommit arr s).frame = s.frame := rfl
@[simp] theorem ledDisposeCommit_pins (arr : Vector LedEntry 7) (s : State) : (ledDisposeCommit arr s).pins = s.pins := rfl
@[simp] theorem ledDisposeCommit_latch (arr : Vector LedEntry 7) (s : State) : (ledDisposeCommit arr s).latch = s.latch := rfl
@[simp] theorem ledDisposeCommit_pinTrace (arr : Vector LedEntry 7) (s : State) : (ledDisposeCommit arr s).pinTrace = s.pinTrace := rfl
@[simp] theorem ledDisposeCommit_busTrace (arr : Vector LedEntry 7) (s : State) : (ledDisposeCommit arr s).busTrace = s.busTrace := rfl
@[simp] theorem ledDisposeCommit_pinPast (arr : Vector LedEntry 7) (s : State) : (ledDisposeCommit arr s).pinPast = s.pinPast := rfl
@[simp] theorem ledDisposeCommit_busPast (arr : Vector LedEntry 7) (s : State) : (ledDisposeCommit arr s).busPast = s.busPast := rfl
@[simp] theorem ledDisposeCommit_script (arr : Vector LedEntry 7) (s : State) : (ledDisposeCommit arr s).script = s.script := rfl
@[simp] theorem ledDisposeCommit_hostReads (arr : Vector LedEntry 7) (s : State) : (ledDisposeCommit arr s).hostReads = s.hostReads := rfl
@[simp] theorem ledDisposeCommit_ackTape (arr : Vector LedEntry 7) (s : State) : (ledDisposeCommit arr s).ackTape = s.ackTape := rfl
@[simp] theorem ledDisposeCommit_byteTape (arr : Vector LedEntry 7) (s : State) : (ledDisposeCommit arr s).byteTape = s.byteTape := rfl
@[simp] theorem ledDisposeCommit_ackDraws (arr : Vector LedEntry 7) (s : State) : (ledDisposeCommit arr s).ackDraws = s.ackDraws := rfl
@[simp] theorem ledDisposeCommit_byteDraws (arr : Vector LedEntry 7) (s : State) : (ledDisposeCommit arr s).byteDraws = s.byteDraws := rfl
@[simp] theorem ledDisposeCommit_params (arr : Vector LedEntry 7) (s : State) : (ledDisposeCommit arr s).params = s.params := rfl

/-! ### envInitCommit -/

@[simp] theorem envInitCommit_arg0 (v : Vector (BitVec 16) 12) (s : State) : (envInitCommit v s).arg0 = s.arg0 := rfl
@[simp] theorem envInitCommit_arg1 (v : Vector (BitVec 16) 12) (s : State) : (envInitCommit v s).arg1 = s.arg1 := rfl
@[simp] theorem envInitCommit_result0 (v : Vector (BitVec 16) 12) (s : State) : (envInitCommit v s).result0 = s.result0 := rfl
@[simp] theorem envInitCommit_result1 (v : Vector (BitVec 16) 12) (s : State) : (envInitCommit v s).result1 = s.result1 := rfl
@[simp] theorem envInitCommit_result2 (v : Vector (BitVec 16) 12) (s : State) : (envInitCommit v s).result2 = s.result2 := rfl
@[simp] theorem envInitCommit_code (v : Vector (BitVec 16) 12) (s : State) : (envInitCommit v s).code = s.code := rfl
@[simp] theorem envInitCommit_sticky (v : Vector (BitVec 16) 12) (s : State) : (envInitCommit v s).sticky = s.sticky := rfl
@[simp] theorem envInitCommit_ctrlWt (v : Vector (BitVec 16) 12) (s : State) : (envInitCommit v s).ctrlWt = s.ctrlWt := rfl
@[simp] theorem envInitCommit_ledState (v : Vector (BitVec 16) 12) (s : State) : (envInitCommit v s).ledState = s.ledState := rfl
@[simp] theorem envInitCommit_envState (v : Vector (BitVec 16) 12) (s : State) : (envInitCommit v s).envState = .ready := rfl
@[simp] theorem envInitCommit_segState (v : Vector (BitVec 16) 12) (s : State) : (envInitCommit v s).segState = s.segState := rfl
@[simp] theorem envInitCommit_led (v : Vector (BitVec 16) 12) (s : State) : (envInitCommit v s).led = s.led := rfl
@[simp] theorem envInitCommit_coef (v : Vector (BitVec 16) 12) (s : State) : (envInitCommit v s).coef = v := rfl
@[simp] theorem envInitCommit_calValid (v : Vector (BitVec 16) 12) (s : State) : (envInitCommit v s).calValid = true := rfl
@[simp] theorem envInitCommit_frame (v : Vector (BitVec 16) 12) (s : State) : (envInitCommit v s).frame = s.frame := rfl
@[simp] theorem envInitCommit_pins (v : Vector (BitVec 16) 12) (s : State) : (envInitCommit v s).pins = s.pins := rfl
@[simp] theorem envInitCommit_latch (v : Vector (BitVec 16) 12) (s : State) : (envInitCommit v s).latch = s.latch := rfl
@[simp] theorem envInitCommit_pinTrace (v : Vector (BitVec 16) 12) (s : State) : (envInitCommit v s).pinTrace = s.pinTrace := rfl
@[simp] theorem envInitCommit_busTrace (v : Vector (BitVec 16) 12) (s : State) : (envInitCommit v s).busTrace = s.busTrace := rfl
@[simp] theorem envInitCommit_pinPast (v : Vector (BitVec 16) 12) (s : State) : (envInitCommit v s).pinPast = s.pinPast := rfl
@[simp] theorem envInitCommit_busPast (v : Vector (BitVec 16) 12) (s : State) : (envInitCommit v s).busPast = s.busPast := rfl
@[simp] theorem envInitCommit_script (v : Vector (BitVec 16) 12) (s : State) : (envInitCommit v s).script = s.script := rfl
@[simp] theorem envInitCommit_hostReads (v : Vector (BitVec 16) 12) (s : State) : (envInitCommit v s).hostReads = s.hostReads := rfl
@[simp] theorem envInitCommit_ackTape (v : Vector (BitVec 16) 12) (s : State) : (envInitCommit v s).ackTape = s.ackTape := rfl
@[simp] theorem envInitCommit_byteTape (v : Vector (BitVec 16) 12) (s : State) : (envInitCommit v s).byteTape = s.byteTape := rfl
@[simp] theorem envInitCommit_ackDraws (v : Vector (BitVec 16) 12) (s : State) : (envInitCommit v s).ackDraws = s.ackDraws := rfl
@[simp] theorem envInitCommit_byteDraws (v : Vector (BitVec 16) 12) (s : State) : (envInitCommit v s).byteDraws = s.byteDraws := rfl
@[simp] theorem envInitCommit_params (v : Vector (BitVec 16) 12) (s : State) : (envInitCommit v s).params = s.params := rfl

/-! ### envDisposeCommit -/

@[simp] theorem envDisposeCommit_arg0 (s : State) : (envDisposeCommit s).arg0 = s.arg0 := rfl
@[simp] theorem envDisposeCommit_arg1 (s : State) : (envDisposeCommit s).arg1 = s.arg1 := rfl
@[simp] theorem envDisposeCommit_result0 (s : State) : (envDisposeCommit s).result0 = s.result0 := rfl
@[simp] theorem envDisposeCommit_result1 (s : State) : (envDisposeCommit s).result1 = s.result1 := rfl
@[simp] theorem envDisposeCommit_result2 (s : State) : (envDisposeCommit s).result2 = s.result2 := rfl
@[simp] theorem envDisposeCommit_code (s : State) : (envDisposeCommit s).code = s.code := rfl
@[simp] theorem envDisposeCommit_sticky (s : State) : (envDisposeCommit s).sticky = s.sticky := rfl
@[simp] theorem envDisposeCommit_ctrlWt (s : State) : (envDisposeCommit s).ctrlWt = s.ctrlWt := rfl
@[simp] theorem envDisposeCommit_ledState (s : State) : (envDisposeCommit s).ledState = s.ledState := rfl
@[simp] theorem envDisposeCommit_envState (s : State) : (envDisposeCommit s).envState = .released := rfl
@[simp] theorem envDisposeCommit_segState (s : State) : (envDisposeCommit s).segState = s.segState := rfl
@[simp] theorem envDisposeCommit_led (s : State) : (envDisposeCommit s).led = s.led := rfl
@[simp] theorem envDisposeCommit_coef (s : State) : (envDisposeCommit s).coef = s.coef := rfl
@[simp] theorem envDisposeCommit_calValid (s : State) : (envDisposeCommit s).calValid = false := rfl
@[simp] theorem envDisposeCommit_frame (s : State) : (envDisposeCommit s).frame = s.frame := rfl
@[simp] theorem envDisposeCommit_pins (s : State) : (envDisposeCommit s).pins = s.pins := rfl
@[simp] theorem envDisposeCommit_latch (s : State) : (envDisposeCommit s).latch = s.latch := rfl
@[simp] theorem envDisposeCommit_pinTrace (s : State) : (envDisposeCommit s).pinTrace = s.pinTrace := rfl
@[simp] theorem envDisposeCommit_busTrace (s : State) : (envDisposeCommit s).busTrace = s.busTrace := rfl
@[simp] theorem envDisposeCommit_pinPast (s : State) : (envDisposeCommit s).pinPast = s.pinPast := rfl
@[simp] theorem envDisposeCommit_busPast (s : State) : (envDisposeCommit s).busPast = s.busPast := rfl
@[simp] theorem envDisposeCommit_script (s : State) : (envDisposeCommit s).script = s.script := rfl
@[simp] theorem envDisposeCommit_hostReads (s : State) : (envDisposeCommit s).hostReads = s.hostReads := rfl
@[simp] theorem envDisposeCommit_ackTape (s : State) : (envDisposeCommit s).ackTape = s.ackTape := rfl
@[simp] theorem envDisposeCommit_byteTape (s : State) : (envDisposeCommit s).byteTape = s.byteTape := rfl
@[simp] theorem envDisposeCommit_ackDraws (s : State) : (envDisposeCommit s).ackDraws = s.ackDraws := rfl
@[simp] theorem envDisposeCommit_byteDraws (s : State) : (envDisposeCommit s).byteDraws = s.byteDraws := rfl
@[simp] theorem envDisposeCommit_params (s : State) : (envDisposeCommit s).params = s.params := rfl

/-! ### segDisposeCommit -/

@[simp] theorem segDisposeCommit_arg0 (r : Readiness) (s : State) : (segDisposeCommit r s).arg0 = s.arg0 := rfl
@[simp] theorem segDisposeCommit_arg1 (r : Readiness) (s : State) : (segDisposeCommit r s).arg1 = s.arg1 := rfl
@[simp] theorem segDisposeCommit_result0 (r : Readiness) (s : State) : (segDisposeCommit r s).result0 = s.result0 := rfl
@[simp] theorem segDisposeCommit_result1 (r : Readiness) (s : State) : (segDisposeCommit r s).result1 = s.result1 := rfl
@[simp] theorem segDisposeCommit_result2 (r : Readiness) (s : State) : (segDisposeCommit r s).result2 = s.result2 := rfl
@[simp] theorem segDisposeCommit_code (r : Readiness) (s : State) : (segDisposeCommit r s).code = s.code := rfl
@[simp] theorem segDisposeCommit_sticky (r : Readiness) (s : State) : (segDisposeCommit r s).sticky = s.sticky := rfl
@[simp] theorem segDisposeCommit_ctrlWt (r : Readiness) (s : State) : (segDisposeCommit r s).ctrlWt = s.ctrlWt := rfl
@[simp] theorem segDisposeCommit_ledState (r : Readiness) (s : State) : (segDisposeCommit r s).ledState = s.ledState := rfl
@[simp] theorem segDisposeCommit_envState (r : Readiness) (s : State) : (segDisposeCommit r s).envState = s.envState := rfl
@[simp] theorem segDisposeCommit_segState (r : Readiness) (s : State) : (segDisposeCommit r s).segState = .released := rfl
@[simp] theorem segDisposeCommit_led (r : Readiness) (s : State) : (segDisposeCommit r s).led = s.led := rfl
@[simp] theorem segDisposeCommit_coef (r : Readiness) (s : State) : (segDisposeCommit r s).coef = s.coef := rfl
@[simp] theorem segDisposeCommit_calValid (r : Readiness) (s : State) : (segDisposeCommit r s).calValid = s.calValid := rfl
@[simp] theorem segDisposeCommit_frame (r : Readiness) (s : State) : (segDisposeCommit r s).frame = if r = .ready then blankCells s.params else s.frame := rfl
@[simp] theorem segDisposeCommit_pins (r : Readiness) (s : State) : (segDisposeCommit r s).pins = s.pins := rfl
@[simp] theorem segDisposeCommit_latch (r : Readiness) (s : State) : (segDisposeCommit r s).latch = s.latch := rfl
@[simp] theorem segDisposeCommit_pinTrace (r : Readiness) (s : State) : (segDisposeCommit r s).pinTrace = s.pinTrace := rfl
@[simp] theorem segDisposeCommit_busTrace (r : Readiness) (s : State) : (segDisposeCommit r s).busTrace = s.busTrace := rfl
@[simp] theorem segDisposeCommit_pinPast (r : Readiness) (s : State) : (segDisposeCommit r s).pinPast = s.pinPast := rfl
@[simp] theorem segDisposeCommit_busPast (r : Readiness) (s : State) : (segDisposeCommit r s).busPast = s.busPast := rfl
@[simp] theorem segDisposeCommit_script (r : Readiness) (s : State) : (segDisposeCommit r s).script = s.script := rfl
@[simp] theorem segDisposeCommit_hostReads (r : Readiness) (s : State) : (segDisposeCommit r s).hostReads = s.hostReads := rfl
@[simp] theorem segDisposeCommit_ackTape (r : Readiness) (s : State) : (segDisposeCommit r s).ackTape = s.ackTape := rfl
@[simp] theorem segDisposeCommit_byteTape (r : Readiness) (s : State) : (segDisposeCommit r s).byteTape = s.byteTape := rfl
@[simp] theorem segDisposeCommit_ackDraws (r : Readiness) (s : State) : (segDisposeCommit r s).ackDraws = s.ackDraws := rfl
@[simp] theorem segDisposeCommit_byteDraws (r : Readiness) (s : State) : (segDisposeCommit r s).byteDraws = s.byteDraws := rfl
@[simp] theorem segDisposeCommit_params (r : Readiness) (s : State) : (segDisposeCommit r s).params = s.params := rfl

/-! ### resetInput -/

@[simp] theorem resetInput_arg0 (s : State) : (resetInput s).arg0 = (State.resetWith s.params).arg0 := rfl
@[simp] theorem resetInput_arg1 (s : State) : (resetInput s).arg1 = (State.resetWith s.params).arg1 := rfl
@[simp] theorem resetInput_result0 (s : State) : (resetInput s).result0 = (State.resetWith s.params).result0 := rfl
@[simp] theorem resetInput_result1 (s : State) : (resetInput s).result1 = (State.resetWith s.params).result1 := rfl
@[simp] theorem resetInput_result2 (s : State) : (resetInput s).result2 = (State.resetWith s.params).result2 := rfl
@[simp] theorem resetInput_code (s : State) : (resetInput s).code = (State.resetWith s.params).code := rfl
@[simp] theorem resetInput_sticky (s : State) : (resetInput s).sticky = (State.resetWith s.params).sticky := rfl
@[simp] theorem resetInput_ctrlWt (s : State) : (resetInput s).ctrlWt = (State.resetWith s.params).ctrlWt := rfl
@[simp] theorem resetInput_ledState (s : State) : (resetInput s).ledState = (State.resetWith s.params).ledState := rfl
@[simp] theorem resetInput_envState (s : State) : (resetInput s).envState = (State.resetWith s.params).envState := rfl
@[simp] theorem resetInput_segState (s : State) : (resetInput s).segState = (State.resetWith s.params).segState := rfl
@[simp] theorem resetInput_led (s : State) : (resetInput s).led = (State.resetWith s.params).led := rfl
@[simp] theorem resetInput_coef (s : State) : (resetInput s).coef = (State.resetWith s.params).coef := rfl
@[simp] theorem resetInput_calValid (s : State) : (resetInput s).calValid = (State.resetWith s.params).calValid := rfl
@[simp] theorem resetInput_frame (s : State) : (resetInput s).frame = (State.resetWith s.params).frame := rfl
@[simp] theorem resetInput_pins (s : State) : (resetInput s).pins = (State.resetWith s.params).pins := rfl
@[simp] theorem resetInput_latch (s : State) : (resetInput s).latch = (State.resetWith s.params).latch := rfl
@[simp] theorem resetInput_pinTrace (s : State) : (resetInput s).pinTrace = (State.resetWith s.params).pinTrace := rfl
@[simp] theorem resetInput_busTrace (s : State) : (resetInput s).busTrace = (State.resetWith s.params).busTrace := rfl
@[simp] theorem resetInput_pinPast (s : State) : (resetInput s).pinPast = s.pinPast ++ s.pinTrace := rfl
@[simp] theorem resetInput_busPast (s : State) : (resetInput s).busPast = s.busPast ++ s.busTrace := rfl
@[simp] theorem resetInput_script (s : State) : (resetInput s).script = s.script := rfl
@[simp] theorem resetInput_hostReads (s : State) : (resetInput s).hostReads = s.hostReads := rfl
@[simp] theorem resetInput_ackTape (s : State) : (resetInput s).ackTape = s.ackTape := rfl
@[simp] theorem resetInput_byteTape (s : State) : (resetInput s).byteTape = s.byteTape := rfl
@[simp] theorem resetInput_ackDraws (s : State) : (resetInput s).ackDraws = s.ackDraws := rfl
@[simp] theorem resetInput_byteDraws (s : State) : (resetInput s).byteDraws = s.byteDraws := rfl
@[simp] theorem resetInput_params (s : State) : (resetInput s).params = s.params := rfl

/-! ### setReadiness -/

@[simp] theorem setReadiness_arg0 (e : Engine) (r : Readiness) (s : State) : (setReadiness e r s).arg0 = s.arg0 := by cases e <;> rfl
@[simp] theorem setReadiness_arg1 (e : Engine) (r : Readiness) (s : State) : (setReadiness e r s).arg1 = s.arg1 := by cases e <;> rfl
@[simp] theorem setReadiness_result0 (e : Engine) (r : Readiness) (s : State) : (setReadiness e r s).result0 = s.result0 := by cases e <;> rfl
@[simp] theorem setReadiness_result1 (e : Engine) (r : Readiness) (s : State) : (setReadiness e r s).result1 = s.result1 := by cases e <;> rfl
@[simp] theorem setReadiness_result2 (e : Engine) (r : Readiness) (s : State) : (setReadiness e r s).result2 = s.result2 := by cases e <;> rfl
@[simp] theorem setReadiness_code (e : Engine) (r : Readiness) (s : State) : (setReadiness e r s).code = s.code := by cases e <;> rfl
@[simp] theorem setReadiness_sticky (e : Engine) (r : Readiness) (s : State) : (setReadiness e r s).sticky = s.sticky := by cases e <;> rfl
@[simp] theorem setReadiness_ctrlWt (e : Engine) (r : Readiness) (s : State) : (setReadiness e r s).ctrlWt = s.ctrlWt := by cases e <;> rfl
@[simp] theorem setReadiness_led (e : Engine) (r : Readiness) (s : State) : (setReadiness e r s).led = s.led := by cases e <;> rfl
@[simp] theorem setReadiness_coef (e : Engine) (r : Readiness) (s : State) : (setReadiness e r s).coef = s.coef := by cases e <;> rfl
@[simp] theorem setReadiness_calValid (e : Engine) (r : Readiness) (s : State) : (setReadiness e r s).calValid = s.calValid := by cases e <;> rfl
@[simp] theorem setReadiness_frame (e : Engine) (r : Readiness) (s : State) : (setReadiness e r s).frame = s.frame := by cases e <;> rfl
@[simp] theorem setReadiness_pins (e : Engine) (r : Readiness) (s : State) : (setReadiness e r s).pins = s.pins := by cases e <;> rfl
@[simp] theorem setReadiness_latch (e : Engine) (r : Readiness) (s : State) : (setReadiness e r s).latch = s.latch := by cases e <;> rfl
@[simp] theorem setReadiness_pinTrace (e : Engine) (r : Readiness) (s : State) : (setReadiness e r s).pinTrace = s.pinTrace := by cases e <;> rfl
@[simp] theorem setReadiness_busTrace (e : Engine) (r : Readiness) (s : State) : (setReadiness e r s).busTrace = s.busTrace := by cases e <;> rfl
@[simp] theorem setReadiness_pinPast (e : Engine) (r : Readiness) (s : State) : (setReadiness e r s).pinPast = s.pinPast := by cases e <;> rfl
@[simp] theorem setReadiness_busPast (e : Engine) (r : Readiness) (s : State) : (setReadiness e r s).busPast = s.busPast := by cases e <;> rfl
@[simp] theorem setReadiness_script (e : Engine) (r : Readiness) (s : State) : (setReadiness e r s).script = s.script := by cases e <;> rfl
@[simp] theorem setReadiness_hostReads (e : Engine) (r : Readiness) (s : State) : (setReadiness e r s).hostReads = s.hostReads := by cases e <;> rfl
@[simp] theorem setReadiness_ackTape (e : Engine) (r : Readiness) (s : State) : (setReadiness e r s).ackTape = s.ackTape := by cases e <;> rfl
@[simp] theorem setReadiness_byteTape (e : Engine) (r : Readiness) (s : State) : (setReadiness e r s).byteTape = s.byteTape := by cases e <;> rfl
@[simp] theorem setReadiness_ackDraws (e : Engine) (r : Readiness) (s : State) : (setReadiness e r s).ackDraws = s.ackDraws := by cases e <;> rfl
@[simp] theorem setReadiness_byteDraws (e : Engine) (r : Readiness) (s : State) : (setReadiness e r s).byteDraws = s.byteDraws := by cases e <;> rfl
@[simp] theorem setReadiness_params (e : Engine) (r : Readiness) (s : State) : (setReadiness e r s).params = s.params := by cases e <;> rfl
@[simp] theorem setReadiness_led_ledState (r : Readiness) (s : State) : (setReadiness .led r s).ledState = r := rfl
@[simp] theorem setReadiness_led_envState (r : Readiness) (s : State) : (setReadiness .led r s).envState = s.envState := rfl
@[simp] theorem setReadiness_led_segState (r : Readiness) (s : State) : (setReadiness .led r s).segState = s.segState := rfl
@[simp] theorem setReadiness_env_ledState (r : Readiness) (s : State) : (setReadiness .env r s).ledState = s.ledState := rfl
@[simp] theorem setReadiness_env_envState (r : Readiness) (s : State) : (setReadiness .env r s).envState = r := rfl
@[simp] theorem setReadiness_env_segState (r : Readiness) (s : State) : (setReadiness .env r s).segState = s.segState := rfl
@[simp] theorem setReadiness_seg_ledState (r : Readiness) (s : State) : (setReadiness .seg r s).ledState = s.ledState := rfl
@[simp] theorem setReadiness_seg_envState (r : Readiness) (s : State) : (setReadiness .seg r s).envState = s.envState := rfl
@[simp] theorem setReadiness_seg_segState (r : Readiness) (s : State) : (setReadiness .seg r s).segState = r := rfl

/-! ### drive -/

@[simp] theorem drive_data_data (v : Level) (p : Pins) : (drive ⟨.data, v⟩ p).data = v := rfl
@[simp] theorem drive_data_clk (v : Level) (p : Pins) : (drive ⟨.data, v⟩ p).clk = p.clk := rfl
@[simp] theorem drive_data_cs (v : Level) (p : Pins) : (drive ⟨.data, v⟩ p).cs = p.cs := rfl
@[simp] theorem drive_clk_data (v : Level) (p : Pins) : (drive ⟨.clk, v⟩ p).data = p.data := rfl
@[simp] theorem drive_clk_clk (v : Level) (p : Pins) : (drive ⟨.clk, v⟩ p).clk = v := rfl
@[simp] theorem drive_clk_cs (v : Level) (p : Pins) : (drive ⟨.clk, v⟩ p).cs = p.cs := rfl
@[simp] theorem drive_cs_data (v : Level) (p : Pins) : (drive ⟨.cs, v⟩ p).data = p.data := rfl
@[simp] theorem drive_cs_clk (v : Level) (p : Pins) : (drive ⟨.cs, v⟩ p).clk = p.clk := rfl
@[simp] theorem drive_cs_cs (v : Level) (p : Pins) : (drive ⟨.cs, v⟩ p).cs = v := rfl

end Sys2Proof.Machine
end

