-- ==== Sys2Proof/Laws/Program.lean ====
section
/-!
SUPPORT. What one sequencer step of a program can do, said once (`advance_cases`), the equations of `advance` that hold
by definition, and how it walks a list of pin events (`advance_emitPins`).
-/
namespace Sys2Proof.Machine

/-! ### The equations of `advance` -/

@[simp] theorem advance_done (c : Code) (f : State → State) (pos : Nat) (rx : List Answer) (s : State) :
    advance (.done c f) pos rx s = finish c (f s) := rfl

@[simp] theorem advance_initializing (e : Engine) (k : Program) (pos : Nat) (rx : List Answer) (s : State) :
    advance (.initializing e k) pos rx s = advance k pos rx (setReadiness e .initializing s) := rfl

@[simp] theorem advance_pin_zero (e : PinEvent) (k : Program) (rx : List Answer) (s : State) :
    advance (.pin e k) 0 rx s = emitPin e s := rfl

@[simp] theorem advance_pin_succ (e : PinEvent) (k : Program) (pos : Nat) (rx : List Answer) (s : State) :
    advance (.pin e k) (pos + 1) rx s = advance k pos rx s := rfl

@[simp] theorem advance_probe_zero (a : BusAddr) (k : Bool → Program) (rx : List Answer) (s : State) :
    advance (.probe a k) 0 rx s = emitProbe a s := rfl

@[simp] theorem advance_probe_ack (a : BusAddr) (k : Bool → Program) (pos : Nat) (b : Bool) (rx : List Answer) (s : State) :
    advance (.probe a k) (pos + 1) (.ack b :: rx) s = advance (k b) pos rx s := rfl

@[simp] theorem advance_read_zero (a : BusAddr) (r : Byte) (n : Nat) (k : Vector Byte n → Program) (rx : List Answer) (s : State) :
    advance (.read a r n k) 0 rx s = emitRead a r n s := rfl

@[simp] theorem advance_read_one (a : BusAddr) (r : Byte) (k : Vector Byte 1 → Program) (pos : Nat) (x : Byte)
    (rx : List Answer) (s : State) :
    advance (.read a r 1 k) (pos + 1) (.bytes [x] :: rx) s = advance (k #v[x]) pos rx s := rfl

@[simp] theorem advance_read_two (a : BusAddr) (r : Byte) (k : Vector Byte 2 → Program) (pos : Nat) (x y : Byte)
    (rx : List Answer) (s : State) :
    advance (.read a r 2 k) (pos + 1) (.bytes [x, y] :: rx) s = advance (k #v[x, y]) pos rx s := rfl

@[simp] theorem advance_read_three (a : BusAddr) (r : Byte) (k : Vector Byte 3 → Program) (pos : Nat) (x y z : Byte)
    (rx : List Answer) (s : State) :
    advance (.read a r 3 k) (pos + 1) (.bytes [x, y, z] :: rx) s = advance (k #v[x, y, z]) pos rx s := rfl

@[simp] theorem advance_write_zero (a : BusAddr) (b : List Byte) (k : Program) (rx : List Answer) (s : State) :
    advance (.write a b k) 0 rx s = emitWrite a b s := rfl

@[simp] theorem advance_write_succ (a : BusAddr) (b : List Byte) (k : Program) (pos : Nat) (rx : List Answer) (s : State) :
    advance (.write a b k) (pos + 1) rx s = advance k pos rx s := rfl

/-- Walking a list of pin events: the event at the position, or the rest of the program past them. -/
theorem advance_emitPins (es : List PinEvent) (k : Program) (pos : Nat) (rx : List Answer) (s : State) :
    advance (emitPins es k) pos rx s =
      match es[pos]? with
      | some e => emitPin e s
      | none => advance k (pos - es.length) rx s := by
  induction es generalizing pos with
  | nil => simp [emitPins]
  | cons e es ih =>
    cases pos with
    | zero => rfl
    | succ pos =>
      have h := ih pos
      simp only [emitPins] at h
      simp only [emitPins, List.foldr_cons, advance_pin_succ, h, List.getElem?_cons_succ, List.length_cons,
        Nat.add_sub_add_right]

theorem advance_emitPins_of_some {es : List PinEvent} {pos : Nat} {e : PinEvent} (h : es[pos]? = some e)
    (k : Program) (rx : List Answer) (s : State) : advance (emitPins es k) pos rx s = emitPin e s := by
  simp [advance_emitPins, h]

theorem advance_emitPins_of_le {es : List PinEvent} {pos : Nat} (h : es.length ≤ pos)
    (k : Program) (rx : List Answer) (s : State) :
    advance (emitPins es k) pos rx s = advance k (pos - es.length) rx s := by
  simp [advance_emitPins, List.getElem?_eq_none h]

/-! ### What a step of a program can do -/

/-- Every leaf of the program satisfies `D`, every pin event `P`, every device addressed `B`, every engine it enters
INITIALIZING `I`. -/
def AllOf (D : Code → (State → State) → Prop) (P : PinEvent → Prop) (B : BusAddr → Prop) (I : Engine → Prop) : Program → Prop
  | .done c f => D c f
  | .initializing e k => I e ∧ AllOf D P B I k
  | .pin e k => P e ∧ AllOf D P B I k
  | .probe a k => B a ∧ ∀ b, AllOf D P B I (k b)
  | .read a _ _ k => B a ∧ ∀ v, AllOf D P B I (k v)
  | .write a _ k => B a ∧ AllOf D P B I k

/-- `u` is `s` with some engines of `I` entered INITIALIZING. -/
inductive Entered (I : Engine → Prop) (s : State) : State → Prop where
  | refl : Entered I s s
  | enter (e : Engine) (u : State) (hI : I e) (h : Entered I s u) : Entered I s (setReadiness e .initializing u)

theorem Entered.trans {I : Engine → Prop} {s u t : State} (h : Entered I s u) (h' : Entered I u t) : Entered I s t := by
  induction h' with
  | refl => exact h
  | enter e v hI _ ih => exact .enter e v hI ih

/-- The effect of one step: a completion at a leaf, or one external event, after the engines entered. -/
inductive Effect (D : Code → (State → State) → Prop) (P : PinEvent → Prop) (B : BusAddr → Prop) (u : State) : State → Prop where
  | done (c : Code) (f : State → State) (h : D c f) : Effect D P B u (finish c (f u))
  | pin (e : PinEvent) (h : P e) : Effect D P B u (emitPin e u)
  | probe (a : BusAddr) (h : B a) : Effect D P B u (emitProbe a u)
  | read (a : BusAddr) (r : Byte) (n : Nat) (h : B a) : Effect D P B u (emitRead a r n u)
  | write (a : BusAddr) (b : List Byte) (h : B a) : Effect D P B u (emitWrite a b u)

/-- The inversion lemma of a sequencer step. -/
theorem advance_cases {D : Code → (State → State) → Prop} {P : PinEvent → Prop} {B : BusAddr → Prop} {I : Engine → Prop}
    {p : Program} (hp : AllOf D P B I p) (pos : Nat) (rx : List Answer) (s : State) :
    ∃ u, Entered I s u ∧ Effect D P B u (advance p pos rx s) := by
  induction p generalizing pos rx s with
  | done c f => exact ⟨s, .refl, .done c f hp⟩
  | initializing e k ih =>
    obtain ⟨u, hu, he⟩ := ih hp.2 pos rx (setReadiness e .initializing s)
    exact ⟨u, (Entered.enter e s hp.1 .refl).trans hu, he⟩
  | pin e k ih =>
    cases pos with
    | zero => exact ⟨s, .refl, .pin e hp.1⟩
    | succ pos => exact ih hp.2 pos rx s
  | probe a k ih =>
    rcases pos with _ | pos
    · exact ⟨s, .refl, .probe a hp.1⟩
    · rcases rx with _ | ⟨_ | _, rx⟩
      · exact ⟨s, .refl, .probe a hp.1⟩
      · exact ih _ (hp.2 _) pos rx s
      · exact ⟨s, .refl, .probe a hp.1⟩
  | read a r n k ih =>
    rcases pos with _ | pos
    · exact ⟨s, .refl, .read a r n hp.1⟩
    · rcases rx with _ | ⟨_ | bs, rx⟩
      · exact ⟨s, .refl, .read a r n hp.1⟩
      · exact ⟨s, .refl, .read a r n hp.1⟩
      · by_cases h : bs.length = n
        · have := ih ⟨bs.toArray, by simp [h]⟩ (hp.2 _) pos rx s
          simpa only [advance, h, dite_true] using this
        · have : advance (.read a r n k) (pos + 1) (.bytes bs :: rx) s = emitRead a r n s := by
            simp only [advance, h, dite_false]
          rw [this]
          exact ⟨s, .refl, .read a r n hp.1⟩
  | write a b k ih =>
    cases pos with
    | zero => exact ⟨s, .refl, .write a b hp.1⟩
    | succ pos => exact ih hp.2 pos rx s

theorem allOf_emitPins {D : Code → (State → State) → Prop} {P : PinEvent → Prop} {B : BusAddr → Prop} {I : Engine → Prop}
    {es : List PinEvent} {k : Program} (hes : ∀ e ∈ es, P e) (hk : AllOf D P B I k) : AllOf D P B I (emitPins es k) := by
  induction es with
  | nil => exact hk
  | cons e es ih =>
    exact ⟨hes e List.mem_cons_self, ih fun e' h => hes e' (List.mem_cons_of_mem e h)⟩

end Sys2Proof.Machine
end

