-- ==== Sys2Proof/Laws/Exec.lean ====
section
/-!
SUPPORT. Every meaning is one step of one program (`exec_eq`), and what every program of every instruction is made of
(`programOf_allOf`): so what one sequencer step of any instruction can do (`exec_cases`).
-/
namespace Sys2Proof.Machine

/-- The program each instruction's meaning takes a step of. -/
def programOf : Instr → State → Program
  | .nop => nopProgram
  | .ledSet idx => ledSetProgram (.single idx)
  | .ledSetAll => ledSetProgram .all
  | .ledOn idx => ledOnProgram (.single idx)
  | .ledOnAll => ledOnProgram .all
  | .ledOff idx => ledOffProgram (.single idx)
  | .ledOffAll => ledOffProgram .all
  | .ledFlush => ledFlushProgram
  | .ledDispose => ledDisposeProgram
  | .envInit => envInitProgram
  | .envReadT => envReadTProgram
  | .envReadP => envReadPProgram
  | .envDispose => envDisposeProgram
  | .segInit => segInitProgram
  | .segShow n a => segShowProgram n a
  | .segDispose => segDisposeProgram
  | .disposeAll => disposeAllProgram

theorem exec_eq (i : Instr) (s : State) : exec i s = .next (advance (programOf i s) s.latch.pos s.latch.rx s) := by
  cases i <;> rfl

/-- What a commit of instruction `i` started in `s` keeps and changes. -/
structure CommitOk (i : Instr) (s : State) (f : State → State) : Prop where
  arg0 : ∀ u, (f u).arg0 = u.arg0
  arg1 : ∀ u, (f u).arg1 = u.arg1
  code : ∀ u, (f u).code = u.code
  sticky : ∀ u, (f u).sticky = u.sticky
  ctrlWt : ∀ u, (f u).ctrlWt = u.ctrlWt
  pins : ∀ u, (f u).pins = u.pins
  latch : ∀ u, (f u).latch = u.latch
  pinTrace : ∀ u, (f u).pinTrace = u.pinTrace
  busTrace : ∀ u, (f u).busTrace = u.busTrace
  script : ∀ u, (f u).script = u.script
  params : ∀ u, (f u).params = u.params
  operands : ∀ u a b c, f { u with arg0 := a, arg1 := b, ctrlWt := c } = { f u with arg0 := a, arg1 := b, ctrlWt := c }
  coef : (∀ u, (f u).coef = u.coef) ∨ (i = .envInit ∧ s.envState ≠ .ready ∧ ∀ u, (f u).envState = .ready)
  ledState : (∀ u, (f u).ledState = u.ledState) ∨ ∀ u, (f u).ledState = .released
  envState : (∀ u, (f u).envState = u.envState ∧ (f u).calValid = u.calValid) ∨
    (i ≠ .envInit ∧ ∀ u, (f u).envState = .released ∧ (f u).calValid = false) ∨
    (i = .envInit ∧ (s.envState = .uninitialized ∨ s.envState = .initializing) ∧
      ((∀ u, (f u).envState = .ready ∧ (f u).calValid = true) ∨ ∀ u, (f u).envState = .failed ∧ (f u).calValid = u.calValid))
  segState : (∀ u, (f u).segState = u.segState) ∨ (i ≠ .segInit ∧ ∀ u, (f u).segState = .released) ∨
    (i = .segInit ∧ (s.segState = .uninitialized ∨ s.segState = .initializing) ∧
      ((∀ u, (f u).segState = .ready) ∨ ∀ u, (f u).segState = .failed))
  envInit : i = .envInit → s.envState = .uninitialized ∨ s.envState = .initializing → ∀ u, (f u).envState ≠ .initializing
  segInit : i = .segInit → s.segState = .uninitialized ∨ s.segState = .initializing → ∀ u, (f u).segState ≠ .initializing

/-- A commit that changes nothing. -/
theorem CommitOk.id {i : Instr} {s : State} (he : i = .envInit → ¬ (s.envState = .uninitialized ∨ s.envState = .initializing))
    (hs : i = .segInit → ¬ (s.segState = .uninitialized ∨ s.segState = .initializing)) : CommitOk i s id :=
  { arg0 := fun _ => rfl, arg1 := fun _ => rfl, code := fun _ => rfl, sticky := fun _ => rfl, ctrlWt := fun _ => rfl,
    pins := fun _ => rfl, latch := fun _ => rfl, pinTrace := fun _ => rfl, busTrace := fun _ => rfl,
    script := fun _ => rfl, params := fun _ => rfl, operands := fun _ _ _ _ => rfl, coef := .inl fun _ => rfl,
    ledState := .inl fun _ => rfl, envState := .inl fun _ => ⟨rfl, rfl⟩, segState := .inl fun _ => rfl,
    envInit := fun h h' => absurd h' (he h), segInit := fun h h' => absurd h' (hs h) }

/-- The leaves of an instruction's program. -/
def LeafOk (i : Instr) (s : State) (c : Code) (f : State → State) : Prop := c ∈ codesOf i ∧ CommitOk i s f

/-- An instruction drives the LED port only while the LED engine is not RELEASED. -/
def PinOk (s : State) (_ : PinEvent) : Prop := s.ledState ≠ .released

/-- An instruction addresses the sensor only while ENV is not RELEASED, the display only while SEG is not RELEASED. -/
def BusOk (s : State) (a : BusAddr) : Prop :=
  (a = s.params.envAddr ∧ s.envState ≠ .released) ∨ (a = Config.segAddr s.params ∧ s.segState ≠ .released)

/-- Only the two init commands enter INITIALIZING, from UNINITIALIZED or INITIALIZING. -/
def EnterOk (i : Instr) (s : State) (e : Engine) : Prop :=
  (i = .envInit ∧ e = .env ∧ (s.envState = .uninitialized ∨ s.envState = .initializing)) ∨
  (i = .segInit ∧ e = .seg ∧ (s.segState = .uninitialized ∨ s.segState = .initializing))

theorem allOf_changeLeds {i : Instr} {s : State} (h0 : Code.ok ∈ codesOf i) (h3 : Code.notReady ∈ codesOf i)
    (h4 : Code.invalidInput ∈ codesOf i) (he : i ≠ .envInit) (hs : i ≠ .segInit) (t : Target) (f : LedEntry → LedEntry) :
    AllOf (LeafOk i s) (PinOk s) (BusOk s) (EnterOk i s) (changeLeds t f s) := by
  have hid : CommitOk i s id := CommitOk.id (fun h => absurd h he) (fun h => absurd h hs)
  unfold changeLeds
  split
  · rename_i hr
    split
    · exact ⟨h4, hid⟩
    · refine allOf_emitPins (fun _ _ => by simp [PinOk, hr]) ⟨h0, ?_⟩
      constructor <;> intros <;> first | rfl | skip
      all_goals first | exact .inl fun _ => rfl | exact .inl fun _ => ⟨rfl, rfl⟩ | skip
      all_goals contradiction
  · exact ⟨h3, hid⟩

theorem allOf_captureCoefs {D : Code → (State → State) → Prop} {P : PinEvent → Prop} {B : BusAddr → Prop} {I : Engine → Prop}
    {p : Params} (hB : B p.envAddr) {next : Vector (BitVec 16) 12 → Program} (hn : ∀ v, AllOf D P B I (next v))
    (ks : List (Fin 12)) (v : Vector (BitVec 16) 12) : AllOf D P B I (captureCoefs p ks v next) := by
  induction ks generalizing v with
  | nil => exact hn v
  | cons k ks ih => exact ⟨hB, fun b => ih _⟩

/-- What every instruction's program is made of. -/
theorem programOf_allOf (i : Instr) (s : State) :
    AllOf (LeafOk i s) (PinOk s) (BusOk s) (EnterOk i s) (programOf i s) := by
  cases i
  case nop => exact ⟨by decide, CommitOk.id nofun nofun⟩
  case ledSet => exact allOf_changeLeds (by simp [codesOf]) (by simp [codesOf]) (by simp [codesOf]) (by simp) (by simp) _ _
  case ledSetAll => exact allOf_changeLeds (i := .ledSetAll) (by simp [codesOf]) (by simp [codesOf]) (by simp [codesOf]) (by simp) (by simp) .all (setEntry s.latch.a0 s.latch.a1)
  case ledOn => exact allOf_changeLeds (by simp [codesOf]) (by simp [codesOf]) (by simp [codesOf]) (by simp) (by simp) _ _
  case ledOnAll => exact allOf_changeLeds (i := .ledOnAll) (by simp [codesOf]) (by simp [codesOf]) (by simp [codesOf]) (by simp) (by simp) .all onEntry
  case ledOff => exact allOf_changeLeds (by simp [codesOf]) (by simp [codesOf]) (by simp [codesOf]) (by simp) (by simp) _ _
  case ledOffAll => exact allOf_changeLeds (i := .ledOffAll) (by simp [codesOf]) (by simp [codesOf]) (by simp [codesOf]) (by simp) (by simp) .all offEntry
  case ledFlush =>
    show AllOf _ _ _ _ (ledFlushProgram s)
    unfold ledFlushProgram
    split
    · rename_i hr
      exact allOf_emitPins (fun _ _ => by simp [PinOk, hr]) ⟨by decide, CommitOk.id nofun nofun⟩
    · exact ⟨by decide, CommitOk.id nofun nofun⟩
  case ledDispose =>
    show AllOf _ _ _ _ (ledDisposeProgram s)
    unfold ledDisposeProgram
    split
    · rename_i hr
      refine allOf_emitPins (fun _ _ => by simp [PinOk, hr]) ⟨by decide, ?_⟩
      constructor <;> intros <;> first | rfl | skip
      all_goals first | exact .inl fun _ => rfl | exact .inr fun _ => rfl | exact .inl fun _ => ⟨rfl, rfl⟩ | skip
      all_goals contradiction
    · exact ⟨by decide, CommitOk.id nofun nofun⟩
  case envInit =>
    show AllOf _ _ _ _ (envInitProgram s)
    unfold envInitProgram
    split
    · rename_i h; exact ⟨by decide, CommitOk.id (by simp [h]) nofun⟩
    · rename_i h; exact ⟨by decide, CommitOk.id (by simp [h]) nofun⟩
    · rename_i h; exact ⟨by decide, CommitOk.id (by simp [h]) nofun⟩
    all_goals
      rename_i h
      have hB : BusOk s s.params.envAddr := .inl ⟨rfl, by simp [h]⟩
      have hfail : CommitOk .envInit s (setReadiness .env .failed) := by
        constructor <;> intros <;> first | rfl | skip
        all_goals first
          | exact .inl fun _ => rfl
          | exact .inr (.inr ⟨rfl, by simp [h], .inr fun _ => ⟨rfl, rfl⟩⟩)
          | contradiction
          | simp
      refine ⟨.inl ⟨rfl, rfl, by simp [h]⟩, hB, fun ack => ?_⟩
      dsimp only
      split
      · refine ⟨hB, fun id => ?_⟩
        dsimp only
        split
        · apply allOf_captureCoefs hB
          intro v
          refine ⟨hB, by decide, ?_⟩
          constructor <;> intros <;> first | rfl | skip
          all_goals first
            | exact .inl fun _ => rfl
            | exact .inr ⟨rfl, by simp [h], fun _ => rfl⟩
            | exact .inr (.inr ⟨rfl, by simp [h], .inl fun _ => ⟨rfl, rfl⟩⟩)
            | contradiction
            | simp
        · exact ⟨by decide, hfail⟩
      · exact ⟨by decide, hfail⟩
  case envReadT =>
    have hc : ∀ x y z, CommitOk .envReadT s (setResults x y z) := by
      intro x y z
      constructor <;> intros <;> first | rfl | skip
      all_goals first | exact .inl fun _ => rfl | exact .inl fun _ => ⟨rfl, rfl⟩ | contradiction
    show AllOf _ _ _ _ (envReadTProgram s)
    unfold envReadTProgram
    split
    · rename_i h
      exact ⟨.inl ⟨rfl, by simp [h]⟩, fun v => ⟨by decide, hc _ _ _⟩⟩
    · exact ⟨by decide, hc _ _ _⟩
  case envReadP =>
    have hc : ∀ x y z, CommitOk .envReadP s (setResults x y z) := by
      intro x y z
      constructor <;> intros <;> first | rfl | skip
      all_goals first | exact .inl fun _ => rfl | exact .inl fun _ => ⟨rfl, rfl⟩ | contradiction
    show AllOf _ _ _ _ (envReadPProgram s)
    unfold envReadPProgram
    split
    · rename_i h
      have hB : BusOk s s.params.envAddr := .inl ⟨rfl, by simp [h]⟩
      refine ⟨hB, fun v => ⟨hB, fun w => ?_⟩⟩
      dsimp only
      split
      · exact ⟨by decide, hc _ _ _⟩
      · exact ⟨by decide, hc _ _ _⟩
    · exact ⟨by decide, hc _ _ _⟩
  case envDispose =>
    show AllOf _ _ _ _ (envDisposeProgram s)
    unfold envDisposeProgram
    split
    · exact ⟨by decide, CommitOk.id nofun nofun⟩
    · refine ⟨by decide, ?_⟩
      constructor <;> intros <;> first | rfl | skip
      all_goals first
        | exact .inl fun _ => rfl
        | exact .inr (.inl ⟨nofun, fun _ => ⟨rfl, rfl⟩⟩)
        | contradiction
  case segInit =>
    show AllOf _ _ _ _ (segInitProgram s)
    unfold segInitProgram
    split
    · rename_i h; exact ⟨by decide, CommitOk.id nofun (by simp [h])⟩
    · rename_i h; exact ⟨by decide, CommitOk.id nofun (by simp [h])⟩
    · rename_i h; exact ⟨by decide, CommitOk.id nofun (by simp [h])⟩
    all_goals
      rename_i h
      have hB : BusOk s (Config.segAddr s.params) := .inr ⟨rfl, by simp [h]⟩
      refine ⟨.inr ⟨rfl, rfl, by simp [h]⟩, hB, fun ack => ?_⟩
      dsimp only
      split
      · refine ⟨hB, hB, hB, by decide, ?_⟩
        constructor <;> intros <;> first | rfl | skip
        all_goals first
          | exact .inl fun _ => rfl
          | exact .inl fun _ => ⟨rfl, rfl⟩
          | exact .inr (.inr ⟨rfl, by simp [h], .inl fun _ => rfl⟩)
          | contradiction
          | simp
      · refine ⟨by decide, ?_⟩
        constructor <;> intros <;> first | rfl | skip
        all_goals first
          | exact .inl fun _ => rfl
          | exact .inl fun _ => ⟨rfl, rfl⟩
          | exact .inr (.inr ⟨rfl, by simp [h], .inr fun _ => rfl⟩)
          | contradiction
          | simp
  case segShow n a =>
    show AllOf _ _ _ _ (segShowProgram n a s)
    unfold segShowProgram
    split
    · rename_i h
      split
      · exact ⟨by simp [codesOf], CommitOk.id nofun nofun⟩
      · refine ⟨.inr ⟨rfl, by simp [h]⟩, by simp [codesOf], ?_⟩
        constructor <;> intros <;> first | rfl | skip
        all_goals first | exact .inl fun _ => rfl | exact .inl fun _ => ⟨rfl, rfl⟩ | contradiction
    · exact ⟨by simp [codesOf], CommitOk.id nofun nofun⟩
  case segDispose =>
    have hc : CommitOk .segDispose s (segDisposeCommit s.segState) := by
      constructor <;> intros <;> first | rfl | skip
      all_goals first
        | exact .inl fun _ => rfl
        | exact .inl fun _ => ⟨rfl, rfl⟩
        | exact .inr (.inl ⟨nofun, fun _ => rfl⟩)
        | contradiction
    show AllOf _ _ _ _ (segDisposeProgram s)
    unfold segDisposeProgram segDisposeEvents
    split
    · exact ⟨by decide, CommitOk.id nofun nofun⟩
    · split
      · rename_i h; exact ⟨.inr ⟨rfl, by simp [h]⟩, by decide, hc⟩
      · exact ⟨by decide, hc⟩
  case disposeAll =>
    have hc : CommitOk .disposeAll s (disposeAllCommit s) := by
      by_cases hl : s.ledState = .released <;> by_cases hv : s.envState = .released <;>
        by_cases hg : s.segState = .released <;> constructor <;> intros <;>
        first
          | contradiction
          | (simp [disposeAllCommit, hl, hv, hg]; done)
          | (simp only [disposeAllCommit, hl, hv, hg, if_true, if_false]; rfl)
    show AllOf _ _ _ _ (disposeAllProgram s)
    unfold disposeAllProgram segDisposeEvents
    refine allOf_emitPins ?_ ?_
    · intro e he
      split at he
      · exact absurd he (by simp)
      · assumption
    · split
      · rename_i h; exact ⟨.inr ⟨rfl, by simp [h]⟩, by decide, hc⟩
      · exact ⟨by decide, hc⟩

/-- What one sequencer step of any instruction can do. -/
theorem exec_cases (i : Instr) (s : State) :
    ∃ u t, exec i s = .next t ∧ Entered (EnterOk i s) s u ∧ Effect (LeafOk i s) (PinOk s) (BusOk s) u t := by
  obtain ⟨u, hu, he⟩ := advance_cases (programOf_allOf i s) s.latch.pos s.latch.rx s
  exact ⟨u, _, exec_eq i s, hu, he⟩

/-- Every step of every instruction answers a next state. -/
theorem exec_next (i : Instr) (s : State) : ∃ t, exec i s = .next t := ⟨_, exec_eq i s⟩

/-- The program is built from the committed state, the latched operands and the parameters, and from nothing else. -/
theorem programOf_congr {s t : State} (h1 : t.ledState = s.ledState) (h2 : t.envState = s.envState)
    (h3 : t.segState = s.segState) (h4 : t.led = s.led) (h5 : t.coef = s.coef) (h6 : t.latch.a0 = s.latch.a0)
    (h7 : t.latch.a1 = s.latch.a1) (h8 : t.latch.wt = s.latch.wt) (h9 : t.params = s.params) (i : Instr) :
    programOf i t = programOf i s := by
  have hc : disposeAllCommit t = disposeAllCommit s := by
    funext u; simp only [disposeAllCommit, h1, h2, h3, h4]
  cases i <;> simp only [programOf, nopProgram, ledSetProgram, ledOnProgram, ledOffProgram, changeLeds, ledFlushProgram,
    ledDisposeProgram, ledDisposeEvents, envInitProgram, envReadTProgram, envReadPProgram, envDisposeProgram, tFineOf, pressureOf, coefInt,
    segInitProgram, segShowProgram, segDisposeProgram, segDisposeEvents, disposeAllProgram, hc, h1, h2, h3, h4, h5, h6, h7, h8, h9]

end Sys2Proof.Machine
end

