-- ==== Sys2Proof/Laws/Step.lean ====
section
/-!
SUPPORT. What a step of the machine is, in each situation, and how runs of steps unfold.
-/
namespace Sys2Proof.Machine

@[simp] theorem stickyAfter_clear_none (set old : BitVec 7) : stickyAfter 0#7 set old = old ||| set := by
  have h : (~~~0#7 : BitVec 7) = BitVec.allOnes 7 := rfl
  rw [stickyAfter, h, BitVec.and_allOnes]

@[simp] theorem stickyAfter_set_none (clear old : BitVec 7) : stickyAfter clear 0#7 old = old &&& ~~~clear := by
  simp [stickyAfter]

theorem finish_eq_completed (c : Code) (s : State) : finish c s = completed c s := by
  simp [finish, completed]

/-- With an empty script a step of a running command is one step of it. -/
theorem step_running {s : State} {i : Instr} (hs : s.script = []) (hr : Running i s) : step s = exec i s := by
  simp [step, nextTurn, hs, sequencerTurn, hr.1, hr.2]

/-- With an empty script an idle machine stays as it is. -/
theorem step_idle {s : State} (hs : s.script = []) (hb : s.latch.busy = false) : step s = .next s := by
  simp [step, nextTurn, hs, sequencerTurn, hb]

@[simp] theorem runSteps_zero (s : State) : runSteps 0 s = .next s := rfl

theorem runSteps_succ (n : Nat) {s t : State} (h : step s = .next t) : runSteps (n + 1) s = runSteps n t := by
  have h' : Sys2Proof.core.step s = .next t := h
  simp only [runSteps, Host.Core.run, h']
  rfl

theorem runSteps_idle {s : State} (hs : s.script = []) (hb : s.latch.busy = false) (n : Nat) : runSteps n s = .next s := by
  induction n with
  | zero => rfl
  | succ n ih => rw [runSteps_succ n (step_idle hs hb), ih]

theorem runSteps_add (m n : Nat) {s t : State} (h : runSteps m s = .next t) : runSteps (m + n) s = runSteps n t := by
  induction m generalizing s with
  | zero => cases h; simp
  | succ m ih =>
    cases hc : step s with
    | next u =>
      rw [runSteps_succ m hc] at h
      rw [Nat.add_right_comm, runSteps_succ (m + n) hc]
      exact ih h
    | fault r => exact nomatch r
    | refused r =>
      have hc' : Sys2Proof.core.step s = .refused r := hc
      simp only [runSteps, Host.Core.run, hc'] at h
      cases h

/-- What no event of a command changes, INITIALIZING apart. -/
theorem entered_keeps {i : Instr} {s u : State} (h : Entered (EnterOk i s) s u) :
    ∃ e g, u = { s with envState := e, segState := g } ∧
      (e = s.envState ∨ (i = .envInit ∧ e = .initializing ∧ (s.envState = .uninitialized ∨ s.envState = .initializing))) ∧
      (g = s.segState ∨ (i = .segInit ∧ g = .initializing ∧ (s.segState = .uninitialized ∨ s.segState = .initializing))) := by
  induction h with
  | refl => exact ⟨s.envState, s.segState, rfl, .inl rfl, .inl rfl⟩
  | enter e u hI _ ih =>
    obtain ⟨e', g', rfl, he, hg⟩ := ih
    rcases hI with ⟨hi, rfl, h⟩ | ⟨hi, rfl, h⟩
    · exact ⟨.initializing, g', rfl, .inr ⟨hi, rfl, h⟩, hg⟩
    · exact ⟨e', .initializing, rfl, he, .inr ⟨hi, rfl, h⟩⟩

end Sys2Proof.Machine
end

