-- ==== Sys2Proof/Laws/Agents.lean ====
section
/-!
SUPPORT. Inversion of a step of the machine over its agents: which agent moved and what it can have done.
-/
namespace Sys2Proof.Machine

/-- What a step of the machine is: the sequencer's turn, with or without a clear of sticky flags just before it, a host
access, or a reset. -/
theorem step_turn {s t : State} (h : step s = .next t) :
    (∃ r, sequencerTurn { s with script := r } = .next t ∧ s.script.head? ≠ some .reset) ∨
    (∃ v r, sequencerTurn (hostWrite 0x0C#8 v { s with script := r }) = .next t ∧ s.script.head? ≠ some .reset) ∨
    (∃ a r, hostAccess a { s with script := r } = .next t ∧ s.script.head? ≠ some .reset) ∨
    (∃ r, t = resetInput { s with script := r } ∧ s.script.head? = some .reset) := by
  unfold step nextTurn at h
  split at h
  · rename_i hs; left; exact ⟨s.script, h, by simp [hs]⟩
  · rename_i hs; left; exact ⟨_, h, by simp [hs]⟩
  · rename_i hs; right; right; left; exact ⟨_, _, h, by simp [hs]⟩
  · rename_i hs
    split at h
    · left; exact ⟨s.script, h, by simp [hs]⟩
    · right; right; left; exact ⟨_, _, h, by simp [hs]⟩
  · rename_i hs; right; right; right; cases h; exact ⟨_, rfl, by simp [hs]⟩
  · rename_i hs; right; left; exact ⟨_, _, h, by simp [hs]⟩
  · cases h

/-- What a host access that is not refused is: a recorded read, or a write. -/
theorem hostAccess_cases {a : HostAccess} {s t : State} (h : hostAccess a s = .next t) :
    (∃ off w, a = .read off w ∧ t = { s with hostReads := s.hostReads ++ [(off, hostReg s off)] }) ∨
    (∃ off v, t = hostWrite off v s) := by
  unfold hostAccess at h
  split at h <;> split at h
  · cases h; left; exact ⟨_, _, rfl, rfl⟩
  · cases h
  · cases h; right; exact ⟨_, _, rfl⟩
  · cases h

/-- What a host write can change; it fills the latch only while no command runs. -/
theorem hostWrite_cases (off : Byte) (v : Word) (s : State) :
    ∃ a0 a1 st wt la, hostWrite off v s = { s with arg0 := a0, arg1 := a1, sticky := st, ctrlWt := wt, latch := la } ∧
      (la = s.latch ∨ s.latch.busy = false ∧ la.pos = 0) := by
  unfold hostWrite issue accept
  split
  · split
    · exact ⟨s.arg0, s.arg1, _, s.ctrlWt, s.latch, rfl, .inl rfl⟩
    · rename_i hb; exact ⟨s.arg0, s.arg1, s.sticky, s.ctrlWt, _, rfl, .inr ⟨by simpa using hb, rfl⟩⟩
  · exact ⟨v, s.arg1, s.sticky, s.ctrlWt, s.latch, rfl, .inl rfl⟩
  · exact ⟨s.arg0, v, s.sticky, s.ctrlWt, s.latch, rfl, .inl rfl⟩
  · exact ⟨s.arg0, s.arg1, _, s.ctrlWt, s.latch, rfl, .inl rfl⟩
  · exact ⟨s.arg0, s.arg1, s.sticky, _, s.latch, rfl, .inl rfl⟩
  · exact ⟨s.arg0, s.arg1, s.sticky, s.ctrlWt, s.latch, rfl, .inl rfl⟩

/-- What a sequencer turn is: nothing while idle, the completion of an illegal word, or one step of the decoded command. -/
theorem sequencerTurn_cases {s t : State} (h : sequencerTurn s = .next t) :
    (s.latch.busy = false ∧ t = s) ∨ (s.latch.busy = true ∧ decode s.latch.op = none ∧ t = finish .illegalCommand s) ∨
    (∃ i, Running i s ∧ exec i s = .next t) := by
  unfold sequencerTurn at h
  split at h
  · rename_i hb
    split at h
    · rename_i i hd; exact .inr (.inr ⟨i, ⟨hb, hd⟩, h⟩)
    · rename_i hd; cases h; exact .inr (.inl ⟨hb, hd, rfl⟩)
  · rename_i hb; cases h; exact .inl ⟨by simpa using hb, rfl⟩

/-- The write of `STATUS` (10_state.md R25). -/
theorem hostWrite_status (v : Word) (s : State) :
    hostWrite 0x0C#8 v s = { s with sticky := stickyAfter (v.extractLsb' 8 7) 0#7 s.sticky } := rfl

end Sys2Proof.Machine
end

