-- ==== Sys2Proof/Laws/Decode.lean ====
section
/-!
SUPPORT. The decoder's search over the opcode table written out as a chain of tests.
-/
namespace Sys2Proof

/-- The decoder as a chain over the rows of the table. -/
theorem decode_eq (w : Word) : decode w =
  if w &&& 0xFFFFFFFF#32 = 0#32 then some .nop
  else if w &&& 0xFFFF00FF#32 = 0x00000001#32 then some (.ledSet (idxField w))
  else if w &&& 0xFFFFFFFF#32 =  0x00010001#32 then some .ledSetAll
  else if w &&& 0xFFFF00FF#32 =  0x00000002#32 then some (.ledOn (idxField w))
  else if w &&& 0xFFFFFFFF#32 =   0x00010002#32 then some .ledOnAll
  else if w &&& 0xFFFF00FF#32 =  0x00000003#32 then some (.ledOff (idxField w))
  else if w &&& 0xFFFFFFFF#32 =   0x00010003#32 then some .ledOffAll
  else if w &&& 0xFFFFFFFF#32 =   0x00000004#32 then some .ledFlush
  else if w &&& 0xFFFFFFFF#32 =   0x00000005#32 then some .ledDispose
  else if w &&& 0xFFFFFFFF#32 =   0x00000010#32 then some .envInit
  else if w &&& 0xFFFFFFFF#32 =   0x00000011#32 then some .envReadT
  else if w &&& 0xFFFFFFFF#32 =   0x00000012#32 then some .envReadP
  else if w &&& 0xFFFFFFFF#32 =   0x00000013#32 then some .envDispose
  else if w &&& 0xFFFFFFFF#32 =   0x00000020#32 then some .segInit
  else if w &&& 0xFFFE00FF#32 = 0x00000021#32 then some (.segShow (idxField w) (alignOf (fField w)))
  else if w &&& 0xFFFFFFFF#32 =   0x00000022#32 then some .segDispose
  else if w &&& 0xFFFFFFFF#32 =   0x00000030#32 then some .disposeAll else none := by
  have hc : ∀ (r : OpRow) (rs : List OpRow), ((r :: rs).find? (fun r => r.selects w)).map (fun r => r.build (idxField w) (fField w)) =
     if w &&& r.mask = r.pattern then some (r.build (idxField w) (fField w)) else (rs.find? (fun r => r.selects w)).map (fun r => r.build (idxField w) (fField w)) := by
    intro r rs
    by_cases h : w &&& r.mask = r.pattern
    · have h' : r.selects w = true := by simp [OpRow.selects, h]
      simp [List.find?, h', h]
    · have h' : r.selects w = false := by simp [OpRow.selects, h]
      simp [List.find?, h', h]
  unfold decode opcodeTable
  simp only [hc, List.find?_nil, Option.map_none, OpRow.fixed, OpRow.single]

end Sys2Proof
end

