-- ==== Sys2Proof/Laws/Run.lean ====
section
/-!
SUPPORT. The whole run of an accepted command, from its first step to its completion, said once (`run_accepted`): the
number of its sequencer steps and the state they end in are `runProgram` of the command's program.
-/
namespace Sys2Proof.Machine

/-- The steps a program takes from a state, and the state its completion leaves. -/
def runProgram : Program → State → Nat × State
  | .done c f, s => (1, finish c (f s))
  | .initializing e k, s => runProgram k (setReadiness e .initializing s)
  | .pin e k, s => ((runProgram k (emitPin e s)).1 + 1, (runProgram k (emitPin e s)).2)
  | .probe a k, s => ((runProgram (k (nextAck s)) (emitProbe a s)).1 + 1, (runProgram (k (nextAck s)) (emitProbe a s)).2)
  | .read a r n k, s =>
    let v : Vector Byte n := ⟨(nextBytes s n).toArray, by simp [nextBytes]⟩
    ((runProgram (k v) (emitRead a r n s)).1 + 1, (runProgram (k v) (emitRead a r n s)).2)
  | .write a b k, s => ((runProgram k (emitWrite a b s)).1 + 1, (runProgram k (emitWrite a b s)).2)

/-- A program that enters no engine. -/
def NoEntry : Program → Prop := AllOf (fun _ _ => True) (fun _ => True) (fun _ => True) (fun _ => False)

theorem noEntry_captureCoefs {p : Params} {next : Vector (BitVec 16) 12 → Program} (hn : ∀ v, NoEntry (next v))
    (ks : List (Fin 12)) (v : Vector (BitVec 16) 12) : NoEntry (captureCoefs p ks v next) :=
  allOf_captureCoefs trivial hn ks v

theorem noEntry_changeLeds (t : Target) (f : LedEntry → LedEntry) (s : State) : NoEntry (changeLeds t f s) := by
  unfold changeLeds
  split
  · split
    · trivial
    · exact allOf_emitPins (fun _ _ => trivial) trivial
  · trivial

/-- A command's program enters an engine at most at its start. -/
theorem programOf_entry (i : Instr) (s : State) :
    NoEntry (programOf i s) ∨
      ∃ e q, programOf i s = .initializing e q ∧ NoEntry q ∧ programOf i (setReadiness e .initializing s) = .initializing e q := by
  cases i
  case ledSet => exact .inl (noEntry_changeLeds _ _ _)
  case ledSetAll => exact .inl (noEntry_changeLeds .all _ _)
  case ledOn => exact .inl (noEntry_changeLeds _ _ _)
  case ledOnAll => exact .inl (noEntry_changeLeds .all _ _)
  case ledOff => exact .inl (noEntry_changeLeds _ _ _)
  case ledOffAll => exact .inl (noEntry_changeLeds .all _ _)
  case nop => exact .inl trivial
  case ledFlush =>
    left
    show NoEntry (ledFlushProgram s)
    unfold ledFlushProgram
    split
    · exact allOf_emitPins (fun _ _ => trivial) trivial
    · trivial
  case ledDispose =>
    left
    show NoEntry (ledDisposeProgram s)
    unfold ledDisposeProgram
    split
    · exact allOf_emitPins (fun _ _ => trivial) trivial
    · trivial
  case envInit =>
    show NoEntry (envInitProgram s) ∨ ∃ e q, envInitProgram s = _ ∧ _ ∧ envInitProgram _ = _
    unfold envInitProgram
    split
    · exact .inl trivial
    · exact .inl trivial
    · exact .inl trivial
    all_goals
      refine .inr ⟨_, _, rfl, ⟨trivial, fun ack => ?_⟩, rfl⟩
      dsimp only
      split
      · refine ⟨trivial, fun id => ?_⟩
        dsimp only
        split
        · refine noEntry_captureCoefs (fun v => ?_) _ _
          exact ⟨trivial, trivial⟩
        · trivial
      · trivial
  case envReadT =>
    left
    show NoEntry (envReadTProgram s)
    unfold envReadTProgram readRaw
    split
    · exact ⟨trivial, fun _ => trivial⟩
    · trivial
  case envReadP =>
    left
    show NoEntry (envReadPProgram s)
    unfold envReadPProgram readRaw
    split
    · refine ⟨trivial, fun _ => ⟨trivial, fun _ => ?_⟩⟩
      dsimp only
      split <;> trivial
    · trivial
  case envDispose =>
    left
    show NoEntry (envDisposeProgram s)
    unfold envDisposeProgram
    split <;> trivial
  case segInit =>
    show NoEntry (segInitProgram s) ∨ ∃ e q, segInitProgram s = _ ∧ _ ∧ segInitProgram _ = _
    unfold segInitProgram
    split
    · exact .inl trivial
    · exact .inl trivial
    · exact .inl trivial
    all_goals
      refine .inr ⟨_, _, rfl, ⟨trivial, fun ack => ?_⟩, rfl⟩
      dsimp only
      split
      · exact ⟨trivial, trivial, trivial, trivial⟩
      · trivial
  case segShow n a =>
    left
    show NoEntry (segShowProgram n a s)
    unfold segShowProgram
    split
    · split
      · trivial
      · exact ⟨trivial, trivial⟩
    · trivial
  case segDispose =>
    left
    show NoEntry (segDisposeProgram s)
    unfold segDisposeProgram segDisposeEvents
    split
    · trivial
    · split
      · exact ⟨trivial, trivial⟩
      · trivial
  case disposeAll =>
    left
    show NoEntry (disposeAllProgram s)
    unfold disposeAllProgram segDisposeEvents
    refine allOf_emitPins (fun _ _ => trivial) ?_
    split
    · exact ⟨trivial, trivial⟩
    · trivial

/-- Running what is left of a program, `p`, when the events before the latch's position have been emitted. `G` is what
the states of the run have in common: that the engine the command entered, if any, is INITIALIZING. -/
theorem run_rest {i : Instr} {P p : Program} {G : State → Prop}
    (hG1 : ∀ e u, G u → G (emitPin e u)) (hG2 : ∀ a u, G u → G (emitProbe a u))
    (hG3 : ∀ a r n u, G u → G (emitRead a r n u)) (hG4 : ∀ a b u, G u → G (emitWrite a b u))
    (hp : NoEntry p) (s : State) (hs : s.script = []) (hr : Running i s) (hP : programOf i s = P) (hg : G s)
    (h : ∀ k rx u, G u → advance P (s.latch.pos + k) (s.latch.rx ++ rx) u = advance p k rx u) :
    runSteps (runProgram p s).1 s = .next (runProgram p s).2 := by
  have hstep : ∀ (s : State) (p' : Program), s.script = [] → Running i s → programOf i s = P → G s →
      (∀ k rx u, G u → advance P (s.latch.pos + k) (s.latch.rx ++ rx) u = advance p' k rx u) →
      step s = .next (advance p' 0 [] s) := by
    intro s p' hs hr hP hg h'
    have := h' 0 [] s hg
    rw [Nat.add_zero, List.append_nil] at this
    rw [step_running hs hr, exec_eq, hP, this]
  induction p generalizing s with
  | done c f =>
    rw [show (runProgram (.done c f) s).1 = 0 + 1 from rfl, runSteps_succ 0 (hstep s _ hs hr hP hg h)]
    rfl
  | initializing e k => exact absurd hp.1 id
  | pin e k ih =>
    have h1 := hstep s _ hs hr hP hg h
    rw [advance_pin_zero] at h1
    rw [show (runProgram (.pin e k) s).1 = (runProgram k (emitPin e s)).1 + 1 from rfl, runSteps_succ _ h1]
    have h' : ∀ k' rx u, G u → advance P ((emitPin e s).latch.pos + k') ((emitPin e s).latch.rx ++ rx) u = advance k k' rx u := by
      intro k' rx u hu
      have := h (k' + 1) rx u hu
      rw [advance_pin_succ] at this
      rw [← this]
      congr 1
      show s.latch.pos + 1 + k' = _
      omega
    have hP' : programOf i (emitPin e s) = P :=
      (programOf_congr (s := s) (t := emitPin e s) rfl rfl rfl rfl rfl rfl rfl rfl rfl i).trans hP
    refine ih hp.2 (emitPin e s) hs hr hP' (hG1 e s hg) h'
  | probe a k ih =>
    have h1 := hstep s _ hs hr hP hg h
    rw [advance_probe_zero] at h1
    rw [show (runProgram (.probe a k) s).1 = (runProgram (k (nextAck s)) (emitProbe a s)).1 + 1 from rfl, runSteps_succ _ h1]
    have h' : ∀ k' rx u, G u → advance P ((emitProbe a s).latch.pos + k') ((emitProbe a s).latch.rx ++ rx) u = advance (k (nextAck s)) k' rx u := by
      intro k' rx u hu
      have := h (k' + 1) (.ack (nextAck s) :: rx) u hu
      rw [advance_probe_ack] at this
      rw [← this]
      congr 1
      · show s.latch.pos + 1 + k' = _
        omega
      · simp
    have hP' : programOf i (emitProbe a s) = P :=
      (programOf_congr (s := s) (t := emitProbe a s) rfl rfl rfl rfl rfl rfl rfl rfl rfl i).trans hP
    refine ih _ (hp.2 _) (emitProbe a s) hs hr hP' (hG2 a s hg) h'
  | read a r n k ih =>
    have h1 := hstep s _ hs hr hP hg h
    rw [advance_read_zero] at h1
    have hv : (nextBytes s n).toArray.size = n := by simp [nextBytes]
    rw [show (runProgram (.read a r n k) s).1 = (runProgram (k ⟨(nextBytes s n).toArray, hv⟩) (emitRead a r n s)).1 + 1 from rfl, runSteps_succ _ h1]
    have h' : ∀ k' rx u, G u → advance P ((emitRead a r n s).latch.pos + k') ((emitRead a r n s).latch.rx ++ rx) u =
        advance (k ⟨(nextBytes s n).toArray, hv⟩) k' rx u := by
      intro k' rx u hu
      have := h (k' + 1) (.bytes (nextBytes s n) :: rx) u hu
      have hl : (nextBytes s n).length = n := by simp [nextBytes]
      have e1 : advance (.read a r n k) (k' + 1) (.bytes (nextBytes s n) :: rx) u =
          advance (k ⟨(nextBytes s n).toArray, hv⟩) k' rx u := by
        simp only [advance, hl, dite_true]
      rw [e1] at this
      rw [← this]
      congr 1
      · show s.latch.pos + 1 + k' = _
        omega
      · simp
    have hP' : programOf i (emitRead a r n s) = P :=
      (programOf_congr (s := s) (t := emitRead a r n s) rfl rfl rfl rfl rfl rfl rfl rfl rfl i).trans hP
    refine ih _ (hp.2 _) (emitRead a r n s) hs hr hP' (hG3 a r n s hg) h'
  | write a b k ih =>
    have h1 := hstep s _ hs hr hP hg h
    rw [advance_write_zero] at h1
    rw [show (runProgram (.write a b k) s).1 = (runProgram k (emitWrite a b s)).1 + 1 from rfl, runSteps_succ _ h1]
    have h' : ∀ k' rx u, G u → advance P ((emitWrite a b s).latch.pos + k') ((emitWrite a b s).latch.rx ++ rx) u = advance k k' rx u := by
      intro k' rx u hu
      have := h (k' + 1) rx u hu
      rw [advance_write_succ] at this
      rw [← this]
      congr 1
      show s.latch.pos + 1 + k' = _
      omega
    have hP' : programOf i (emitWrite a b s) = P :=
      (programOf_congr (s := s) (t := emitWrite a b s) rfl rfl rfl rfl rfl rfl rfl rfl rfl i).trans hP
    refine ih hp.2 (emitWrite a b s) hs hr hP' (hG4 a b s hg) h'

theorem runProgram_pos (p : Program) (s : State) : ∃ n, (runProgram p s).1 = n + 1 := by
  induction p generalizing s with
  | done c f => exact ⟨0, rfl⟩
  | initializing e k ih => exact ih _
  | pin e k _ => exact ⟨_, rfl⟩
  | probe a k _ => exact ⟨_, rfl⟩
  | read a r n k _ => exact ⟨_, rfl⟩
  | write a b k _ => exact ⟨_, rfl⟩

/-- The whole run of an accepted command. -/
theorem run_accepted {i : Instr} {s : State} (ha : Accepted i s) :
    runSteps (runProgram (programOf i s) s).1 s = .next (runProgram (programOf i s) s).2 := by
  obtain ⟨hs, hr, hpos, hrx⟩ := ha
  rcases programOf_entry i s with hn | ⟨e, q, hq, hn, hq'⟩
  · refine run_rest (G := fun _ => True) (fun _ _ _ => trivial) (fun _ _ _ => trivial) (fun _ _ _ _ _ => trivial)
      (fun _ _ _ _ => trivial) hn s hs hr rfl trivial ?_
    intro k rx u _
    rw [hpos, hrx, Nat.zero_add, List.nil_append]
  · have hs' : (setReadiness e .initializing s).script = [] := by cases e <;> exact hs
    have hl' : (setReadiness e .initializing s).latch = s.latch := by cases e <;> rfl
    have hr' : Running i (setReadiness e .initializing s) := by unfold Running; rw [hl']; exact hr
    have hrun : runSteps (runProgram q (setReadiness e .initializing s)).1 (setReadiness e .initializing s) =
        .next (runProgram q (setReadiness e .initializing s)).2 := by
      refine run_rest (G := fun u => readiness e u = .initializing) ?_ ?_ ?_ ?_ hn _ hs' hr' hq' ?_ ?_
      · intro _ u h; cases e <;> exact h
      · intro _ u h; cases e <;> exact h
      · intro _ _ _ u h; cases e <;> exact h
      · intro _ _ u h; cases e <;> exact h
      · cases e <;> rfl
      · intro k rx u hu
        rw [hl', hpos, hrx, Nat.zero_add, List.nil_append, advance_initializing]
        congr 1
        cases e <;> (cases u; simp only [readiness] at hu; subst hu; rfl)
    have hst : step s = step (setReadiness e .initializing s) := by
      rw [step_running hs hr, step_running hs' hr', exec_eq, exec_eq, hq, hq', hl', advance_initializing, advance_initializing]
      congr 2
      cases e <;> rfl
    rw [hq]
    show runSteps (runProgram q _).1 s = .next (runProgram q _).2
    obtain ⟨n, hn⟩ := runProgram_pos q (setReadiness e .initializing s)
    rw [hn] at hrun ⊢
    obtain ⟨v, hv⟩ := exec_next i s
    have h1 : step s = .next v := (step_running hs hr).trans hv
    rw [runSteps_succ n h1]
    rw [runSteps_succ n (hst ▸ h1)] at hrun
    exact hrun

/-! ### The runs of the program shapes -/

@[simp] theorem runProgram_done (c : Code) (f : State → State) (s : State) : runProgram (.done c f) s = (1, finish c (f s)) := rfl

@[simp] theorem runProgram_initializing (e : Engine) (k : Program) (s : State) :
    runProgram (.initializing e k) s = runProgram k (setReadiness e .initializing s) := rfl

@[simp] theorem runProgram_write (a : BusAddr) (b : List Byte) (k : Program) (s : State) :
    runProgram (.write a b k) s = ((runProgram k (emitWrite a b s)).1 + 1, (runProgram k (emitWrite a b s)).2) := rfl

@[simp] theorem runProgram_probe (a : BusAddr) (k : Bool → Program) (s : State) :
    runProgram (.probe a k) s =
      ((runProgram (k (nextAck s)) (emitProbe a s)).1 + 1, (runProgram (k (nextAck s)) (emitProbe a s)).2) := rfl

@[simp] theorem runProgram_read_one (a : BusAddr) (r : Byte) (k : Vector Byte 1 → Program) (s : State) :
    runProgram (.read a r 1 k) s = ((runProgram (k #v[byteAhead s 0]) (emitRead a r 1 s)).1 + 1,
      (runProgram (k #v[byteAhead s 0]) (emitRead a r 1 s)).2) := rfl

@[simp] theorem runProgram_read_two (a : BusAddr) (r : Byte) (k : Vector Byte 2 → Program) (s : State) :
    runProgram (.read a r 2 k) s = ((runProgram (k #v[byteAhead s 0, byteAhead s 1]) (emitRead a r 2 s)).1 + 1,
      (runProgram (k #v[byteAhead s 0, byteAhead s 1]) (emitRead a r 2 s)).2) := rfl

@[simp] theorem runProgram_read_three (a : BusAddr) (r : Byte) (k : Vector Byte 3 → Program) (s : State) :
    runProgram (.read a r 3 k) s =
      ((runProgram (k #v[byteAhead s 0, byteAhead s 1, byteAhead s 2]) (emitRead a r 3 s)).1 + 1,
       (runProgram (k #v[byteAhead s 0, byteAhead s 1, byteAhead s 2]) (emitRead a r 3 s)).2) := rfl

/-- The state after a list of pin events. -/
def afterPins (es : List PinEvent) (s : State) : State :=
  { s with pins := pinsAfter es s.pins, pinTrace := s.pinTrace ++ es
           latch := { s.latch with pos := s.latch.pos + es.length } }

/-- The run of a list of pin events and the rest. -/
theorem runProgram_emitPins (es : List PinEvent) (k : Program) (s : State) :
    runProgram (emitPins es k) s = ((runProgram k (afterPins es s)).1 + es.length, (runProgram k (afterPins es s)).2) := by
  induction es generalizing s with
  | nil => simp [emitPins, afterPins, pinsAfter]
  | cons e es ih =>
    have h : afterPins (e :: es) s = afterPins es (emitPin e s) := by
      simp [afterPins, emitPin, pinsAfter, Nat.add_comm, Nat.add_left_comm]
    have h' := ih (emitPin e s)
    show ((runProgram (emitPins es k) (emitPin e s)).1 + 1, (runProgram (emitPins es k) (emitPin e s)).2) = _
    rw [h', h, List.length_cons, Nat.add_assoc]

/-- One more pin event after a list of them. -/
theorem emitPin_afterPins (e : PinEvent) (es : List PinEvent) (s : State) :
    emitPin e (afterPins es s) = afterPins (es ++ [e]) s := by
  simp [afterPins, emitPin, pinsAfter, Nat.add_assoc]

/-- The first `n` steps of an accepted command whose rule begins with the pin events `es`, while `n` is within them. -/
theorem run_pins {i : Instr} {s : State} {es : List PinEvent} {k : Program} (ha : Accepted i s)
    (hp : programOf i s = emitPins es k) (n : Nat) (hn : n ≤ es.length) :
    runSteps n s = .next (afterPins (es.take n) s) := by
  induction n with
  | zero => simp [afterPins, pinsAfter]
  | succ n ih =>
    obtain ⟨hs, hr, hpos, _⟩ := ha
    have he : es[n]? = some es[n] := List.getElem?_eq_getElem hn
    have hl : (afterPins (es.take n) s).latch.pos = n := by
      simp [afterPins, hpos, Nat.le_of_succ_le hn]
    have hq : programOf i (afterPins (es.take n) s) = emitPins es k :=
      (programOf_congr (s := s) (t := afterPins (es.take n) s) rfl rfl rfl rfl rfl rfl rfl rfl rfl i).trans hp
    have hr' : Running i (afterPins (es.take n) s) := hr
    have h1 : step (afterPins (es.take n) s) = .next (emitPin es[n] (afterPins (es.take n) s)) := by
      rw [step_running (s := afterPins (es.take n) s) hs hr', exec_eq, hq, hl, advance_emitPins_of_some he]
    have ht : es.take (n + 1) = es.take n ++ [es[n]] := by rw [List.take_add_one, he]; rfl
    rw [runSteps_add n 1 (ih (Nat.le_of_succ_le hn)), runSteps_succ 0 h1, runSteps_zero, ht, emitPin_afterPins]

/-! ### The bus answers still to come -/

/-- After n bytes have been taken the byte k places ahead is the one that was n + k places ahead. -/
@[simp] theorem byteAhead_emitRead (a : BusAddr) (r : Byte) (n : Nat) (s : State) (k : Nat) :
    byteAhead (emitRead a r n s) k = byteAhead s (n + k) := by
  simp only [byteAhead, emitRead, List.getElem?_drop, List.length_drop]
  cases h : s.byteTape[n + k]? with
  | some b => rfl
  | none =>
    have := List.getElem?_eq_none_iff.1 h
    show Config.freeByte _ = Config.freeByte _
    congr 1
    omega

@[simp] theorem byteAhead_emitProbe (a : BusAddr) (s : State) (k : Nat) : byteAhead (emitProbe a s) k = byteAhead s k := rfl
@[simp] theorem byteAhead_emitWrite (a : BusAddr) (b : List Byte) (s : State) (k : Nat) :
    byteAhead (emitWrite a b s) k = byteAhead s k := rfl
@[simp] theorem byteAhead_setReadiness (e : Engine) (r : Readiness) (s : State) (k : Nat) :
    byteAhead (setReadiness e r s) k = byteAhead s k := by cases e <;> rfl
@[simp] theorem nextAck_setReadiness (e : Engine) (r : Readiness) (s : State) :
    nextAck (setReadiness e r s) = nextAck s := by cases e <;> rfl

end Sys2Proof.Machine
end

