-- ==== Sys2Proof/Laws/Env.lean ====
section
/-!
SUPPORT. The coefficient capture of `env.init` as a whole: what its twelve reads build, and its run.
-/
namespace Sys2Proof.Machine

/-- Setting every one of the twelve entries leaves nothing of the vector started from. -/
theorem coefOrder_set_all (g : Fin 12 → BitVec 16) (v : Vector (BitVec 16) 12) :
    coefOrder.foldl (fun (w : Vector (BitVec 16) 12) (k : Fin 12) => w.set k (g k)) v = Vector.ofFn g := by
  apply Vector.ext
  intro i hi
  simp only [coefOrder, List.foldl_cons, List.foldl_nil, Vector.getElem_set, Vector.getElem_ofFn]
  match i with
  | 0 | 1 | 2 | 3 | 4 | 5 | 6 | 7 | 8 | 9 | 10 | 11 => rfl

/-- Passing the capture reads when their answers are in the latch: one answer per read, and one coefficient each. -/
theorem advance_captureCoefs {p : Params} (next : Vector (BitVec 16) 12 → Program) (lo hi : Fin 12 → Byte)
    (ks : List (Fin 12)) (v : Vector (BitVec 16) 12) (pos : Nat) (rx : List Answer) (s : State) :
    advance (captureCoefs p ks v next) (ks.length + pos) (ks.map (fun k => .bytes [lo k, hi k]) ++ rx) s =
      advance (next (ks.foldl (fun (w : Vector (BitVec 16) 12) (k : Fin 12) => w.set k (hi k ++ lo k)) v)) pos rx s := by
  induction ks generalizing v with
  | nil => simp [captureCoefs]
  | cons k ks ih =>
    simp only [captureCoefs, List.length_cons, List.map_cons, List.cons_append, List.foldl_cons]
    rw [show ks.length + 1 + pos = (ks.length + pos) + 1 by omega, advance_read_two]
    exact ih _

theorem nextBytes_one (s : State) : nextBytes s 1 = [byteAhead s 0] := rfl
theorem nextBytes_two (s : State) : nextBytes s 2 = [byteAhead s 0, byteAhead s 1] := rfl
theorem nextBytes_three (s : State) : nextBytes s 3 = [byteAhead s 0, byteAhead s 1, byteAhead s 2] := rfl

/-- The state after the capture reads of the indices listed. -/
def afterCapture (ks : List (Fin 12)) (s : State) : State :=
  ks.foldl (fun s k => emitRead s.params.envAddr s.params.envCalReg[k] 2 s) s

/-- What the capture reads change: the bus trace, the latch's position and answers, and the bytes still to come. -/
theorem afterCapture_eq (ks : List (Fin 12)) (s : State) :
    ∃ evs rx, afterCapture ks s = { s with
        busTrace := s.busTrace ++ evs
        latch := { s.latch with pos := s.latch.pos + ks.length, rx := rx }
        byteTape := s.byteTape.drop (2 * ks.length)
        byteDraws := s.byteDraws + (2 * ks.length - s.byteTape.length) } ∧
      evs = ks.mapIdx fun j k =>
        .read s.params.envAddr s.params.envCalReg[k] [byteAhead s (2 * j), byteAhead s (2 * j + 1)] := by
  induction ks generalizing s with
  | nil => exact ⟨[], s.latch.rx, by simp [afterCapture], rfl⟩
  | cons k ks ih =>
    obtain ⟨evs, rx, h, hevs⟩ := ih (emitRead s.params.envAddr s.params.envCalReg[k] 2 s)
    refine ⟨_, rx, ?_, rfl⟩
    show afterCapture ks (emitRead s.params.envAddr s.params.envCalReg[k] 2 s) = _
    rw [h, hevs]
    simp only [emitRead, List.append_assoc, List.length_cons, List.drop_drop, List.length_drop]
    rw [State.mk.injEq]
    refine ⟨rfl, rfl, rfl, rfl, rfl, rfl, rfl, rfl, rfl, rfl, rfl, rfl, rfl, rfl, rfl, rfl, ?_, rfl, ?_, rfl, rfl, rfl, rfl,
      rfl, ?_, rfl, ?_, rfl⟩
    · congr 1; omega
    · rw [List.mapIdx_cons]
      congr 1
      rw [List.singleton_append]
      refine congr (congrArg List.cons rfl) ?_
      congr 1
      funext j k'
      have hb := fun m => byteAhead_emitRead s.params.envAddr s.params.envCalReg[k] 2 s m
      simp only [emitRead] at hb
      rw [hb, hb, show 2 * (j + 1) = 2 + 2 * j by omega, show 2 + 2 * j + 1 = 2 + (2 * j + 1) by omega]
    · congr 1; omega
    · omega

/-- The run of the whole capture and the rest: coefficient k is read after 2 k bytes, low byte first. -/
theorem runProgram_captureCoefs (next : Vector (BitVec 16) 12 → Program) (v : Vector (BitVec 16) 12) (s : State) :
    runProgram (captureCoefs s.params coefOrder v next) s =
      ((runProgram (next (Vector.ofFn fun k => byteAhead s (2 * k.val + 1) ++ byteAhead s (2 * k.val)))
          (afterCapture coefOrder s)).1 + 12,
       (runProgram (next (Vector.ofFn fun k => byteAhead s (2 * k.val + 1) ++ byteAhead s (2 * k.val)))
          (afterCapture coefOrder s)).2) := by
  rw [← coefOrder_set_all (fun k => byteAhead s (2 * k.val + 1) ++ byteAhead s (2 * k.val)) v]
  simp only [coefOrder, captureCoefs, runProgram_read_two, byteAhead_emitRead, List.foldl_cons, List.foldl_nil,
    afterCapture, coefOfBytes]
  rfl

end Sys2Proof.Machine
end

