-- ==== Sys2Proof/Laws/Led.lean ====
section
/-!
SUPPORT. What the LED array update does to one LED and to all, the lengths of the parts of a flush, and the line levels
after stretches of pin trace.
-/
namespace Sys2Proof.Machine

theorem updateLeds_single (idx : Nat) (h : idx < 7) (f : LedEntry → LedEntry) (arr : Vector LedEntry 7) :
    updateLeds [idx] f arr = arr.set idx (f arr[idx]) := by
  apply Vector.ext
  intro i hi
  simp only [updateLeds, Vector.getElem_ofFn, Vector.getElem_set, List.mem_singleton, Fin.getElem_fin]
  by_cases hh : i = idx
  · subst hh; simp
  · simp [hh, Ne.symm hh]

theorem updateLeds_all (f : LedEntry → LedEntry) (arr : Vector LedEntry 7) :
    updateLeds (List.range 7) f arr = arr.map f := by
  apply Vector.ext
  intro i hi
  simp only [updateLeds, Vector.getElem_ofFn, Vector.getElem_map, List.mem_range, hi, if_true, Fin.getElem_fin]

theorem allOff_eq (arr : Vector LedEntry 7) : allOff arr = arr.map offEntry := updateLeds_all _ _

theorem pulses_length (n : Nat) : (pulses n).length = 2 * n := by
  simp [pulses, pulse, List.length_flatten]
  omega

theorem sendByte_length (b : Byte) : (sendByte b).length = 24 := by
  simp [sendByte, sendBit, pulse, bitsMsbFirst]

theorem sendLed_length (e : LedEntry) : (sendLed e).length = 96 := by
  simp [sendLed, ledBytes, sendByte_length]

theorem pinsAfter_append (a b : List PinEvent) (p : Pins) : pinsAfter (a ++ b) p = pinsAfter b (pinsAfter a p) := by
  simp [pinsAfter]

end Sys2Proof.Machine
end

