-- ==== Sys2Proof/Laws/PerInstr.lean ====
section
/-!
SUPPORT. The fields of the word of each instruction, against the columns OP, F and "operands in word" of the opcode
table (30_encoding.md R91 to R93).
-/
namespace Sys2Proof

/-- The four fields of a command word are the values it was built from. -/
theorem commandWord_fields (op : Byte) (idx : Nat) (f : Bool) (h : idx < 256) :
    opField (commandWord op idx f) = op ∧ idxField (commandWord op idx f) = idx ∧
    fField (commandWord op idx f) = f ∧ rsvField (commandWord op idx f) = 0#15 := by
  obtain ⟨b, rfl⟩ : ∃ b : BitVec 8, idx = b.toNat := ⟨BitVec.ofNat 8 idx, by simp; omega⟩
  have e : BitVec.ofNat 32 b.toNat = b.setWidth 32 := by simp [BitVec.ofNat_toNat]
  have bit (k : Nat) : (if f then 0x00010000#32 else 0#32).getLsbD k = (f && k == 16) := by
    by_cases hk : k < 32
    · have : ∀ k : Fin 32, (0x00010000#32).getLsbD k = (k.val == 16) := by decide
      cases f <;> simp [this ⟨k, hk⟩]
    · have h32 : 32 ≤ k := by omega
      have : (k == 16) = false := by simp; omega
      rw [BitVec.getLsbD_of_ge _ _ h32, this, Bool.and_false]
  unfold opField idxField fField rsvField commandWord
  rw [e]
  refine ⟨?_, congrArg BitVec.toNat (a₂ := b) ?_, ?_, ?_⟩
  · ext i hi
    have : ¬ 8 ≤ i ∧ i < 32 ∧ i ≠ 16 := by omega
    simp [← BitVec.getLsbD_eq_getElem, hi, this, bit]
  · ext i hi
    have := op.getLsbD_of_ge (8 + i) (by omega)
    have : 8 + i < 32 ∧ i < 32 := by omega
    have below : decide (8 + i < 8) = false := decide_eq_false (by omega)
    have other : (8 + i == 16) = false := beq_eq_false_iff_ne.mpr (by omega)
    rw [← BitVec.getLsbD_eq_getElem, BitVec.getLsbD_extractLsb', BitVec.getLsbD_or, BitVec.getLsbD_or, bit, other]
    simp_all
  · cases f <;> simp
  · ext i hi
    have : 17 + i < 32 ∧ (17 + i == 16) = false := by
      refine ⟨?_, beq_eq_false_iff_ne.mpr ?_⟩ <;> omega
    have := op.getLsbD_of_ge (17 + i) (by omega)
    have := b.getLsbD_of_ge (17 + i - 8) (by omega)
    simp_all [← BitVec.getLsbD_eq_getElem]

namespace Laws.RowWord

/-- The opcode of an instruction's row (30_encoding.md R93, column OP). -/
def opcode : Instr → Byte
  | .nop => 0x00#8
  | .ledSet _ | .ledSetAll => 0x01#8
  | .ledOn _ | .ledOnAll => 0x02#8
  | .ledOff _ | .ledOffAll => 0x03#8
  | .ledFlush => 0x04#8
  | .ledDispose => 0x05#8
  | .envInit => 0x10#8
  | .envReadT => 0x11#8
  | .envReadP => 0x12#8
  | .envDispose => 0x13#8
  | .segInit => 0x20#8
  | .segShow _ _ => 0x21#8
  | .segDispose => 0x22#8
  | .disposeAll => 0x30#8

/-- The `F` bit of an instruction's word: the ALL forms and right alignment (30_encoding.md R92). -/
def flag : Instr → Bool
  | .ledSetAll | .ledOnAll | .ledOffAll | .segShow _ .right => true
  | .nop | .ledSet _ | .ledOn _ | .ledOff _ | .ledFlush | .ledDispose | .envInit | .envReadT | .envReadP
  | .envDispose | .segInit | .segShow _ .left | .segDispose | .disposeAll => false

/-- The word of a well-formed instruction holds its row's `OP`, its operand (else 0) in `IDX`, its `F` bit, and 0 in
`RSV`. -/
def Statement (i : Instr) : Prop :=
  i.wellFormed = true →
    opField (encode i) = opcode i ∧ idxField (encode i) = i.idxOperand.getD 0 ∧
    fField (encode i) = flag i ∧ rsvField (encode i) = 0#15

theorem nop : Statement .nop := fun _ => commandWord_fields _ _ _ (by decide)
theorem ledSet (idx : Nat) : Statement (.ledSet idx) := fun h => commandWord_fields _ _ _ (of_decide_eq_true h)
theorem ledSetAll : Statement .ledSetAll := fun _ => commandWord_fields _ _ _ (by decide)
theorem ledOn (idx : Nat) : Statement (.ledOn idx) := fun h => commandWord_fields _ _ _ (of_decide_eq_true h)
theorem ledOnAll : Statement .ledOnAll := fun _ => commandWord_fields _ _ _ (by decide)
theorem ledOff (idx : Nat) : Statement (.ledOff idx) := fun h => commandWord_fields _ _ _ (of_decide_eq_true h)
theorem ledOffAll : Statement .ledOffAll := fun _ => commandWord_fields _ _ _ (by decide)
theorem ledFlush : Statement .ledFlush := fun _ => commandWord_fields _ _ _ (by decide)
theorem ledDispose : Statement .ledDispose := fun _ => commandWord_fields _ _ _ (by decide)
theorem envInit : Statement .envInit := fun _ => commandWord_fields _ _ _ (by decide)
theorem envReadT : Statement .envReadT := fun _ => commandWord_fields _ _ _ (by decide)
theorem envReadP : Statement .envReadP := fun _ => commandWord_fields _ _ _ (by decide)
theorem envDispose : Statement .envDispose := fun _ => commandWord_fields _ _ _ (by decide)
theorem segInit : Statement .segInit := fun _ => commandWord_fields _ _ _ (by decide)
theorem segShow (n : Nat) (align : Align) : Statement (.segShow n align) := by
  cases align <;> exact fun h => commandWord_fields _ _ _ (of_decide_eq_true h)
theorem segDispose : Statement .segDispose := fun _ => commandWord_fields _ _ _ (by decide)
theorem disposeAll : Statement .disposeAll := fun _ => commandWord_fields _ _ _ (by decide)

end Laws.RowWord

end Sys2Proof
end

