-- ==== Sys2Proof/Tests/Slice0.lean ====
section
/-!
SUPPORT. The model's own tests: single steps whose expected values are those of 95_test_vectors.md, and, for every
statement with hypotheses, states and operands that meet them (at the boundary values of each clause).
-/
namespace Sys2Proof.Tests

open Sys2Proof.Machine

/-! ## Helpers -/

/-- The fixture charset of 95_test_vectors.md: a test input. -/
def fixture : List (Byte × Mask) :=
  [(0x20#8, 0x0000#16), (0x30#8, 0x0C3F#16), (0x31#8, 0x0006#16), (0x41#8, 0x00F7#16), (0x42#8, 0x128F#16),
   (0x48#8, 0x00F6#16), (0x49#8, 0x1209#16)]

/-- The reference instantiation of 95_test_vectors.md. -/
def params : Params :=
  { envAddr := 0x77#7, segGap := 120, envIdReg := 0xD0#8, envSignature := 0x58#8,
    envCalReg := #v[0x88#8, 0x8A#8, 0x8C#8, 0x8E#8, 0x90#8, 0x92#8, 0x94#8, 0x96#8, 0x98#8, 0x9A#8, 0x9C#8, 0x9E#8],
    envCtrlReg := 0xF4#8, envCtrlValue := 0x27#8, envPressMsbReg := 0xF7#8, envTempMsbReg := 0xFA#8,
    segCmdSystem := 0x21#8, segCmdDisplay := 0x81#8, segCmdBright := 0xEF#8,
    spaceMask := 0x0000#16, charset := fixture, hbrBase := 0, tPinMin := 0 }

/-- The reference machine right after reset. -/
def base : State := State.resetWith params

/-- `i` running with the operand words `a0` and `a1`, after `pos` events that were answered by `rx`. -/
def at' (i : Instr) (a0 a1 : Word) (pos : Nat) (rx : List Answer) (s : State) : State :=
  { s with latch := { busy := true, op := encode i, a0 := a0, a1 := a1, wt := false, pos := pos, rx := rx } }

/-- `i` just accepted, with no operand words. -/
def running (i : Instr) (s : State) : State := at' i 0#32 0#32 0 [] s

/-- The same with `wt` = 1 latched. -/
def writeThrough (s : State) : State := { s with latch := { s.latch with wt := true } }

/-- A machine whose script is `ts`. -/
def scripted (ts : List Turn) (s : State) : State := { s with script := ts }

/-- An outcome is a next state that passes a check. -/
def gives (o : Host.Outcome State Fault Refusal) (check : State → Bool) : Bool :=
  match o with
  | .next t => check t
  | .fault _ | .refused _ => false

/-- The whole `STATUS` word after a completion. -/
def statusIs (w : Word) (t : State) : Bool := hostReg t 0x0C#8 == w

/-- The whole `ENG_STATE` word. -/
def enginesAre (w : Word) (t : State) : Bool := hostReg t 0x24#8 == w

/-- The datasheet's coefficients (95_test_vectors.md 2), as captured. -/
def coefficients : Vector (BitVec 16) 12 :=
  #v[0x6B70#16, 0x6743#16, 0xFC18#16, 0x8E7D#16, 0xD643#16, 0x0BD0#16, 0x0B27#16, 0x008C#16, 0xFFF9#16, 0x3C8C#16,
     0xC6F8#16, 0x1770#16]

/-- The answers to a successful `env.init` (95_test_vectors.md 2 and 3.8, V-5). -/
def initAnswers : List Answer :=
  [.ack true, .bytes [0x58#8], .bytes [0x70#8, 0x6B#8], .bytes [0x43#8, 0x67#8], .bytes [0x18#8, 0xFC#8],
   .bytes [0x7D#8, 0x8E#8], .bytes [0x43#8, 0xD6#8], .bytes [0xD0#8, 0x0B#8], .bytes [0x27#8, 0x0B#8],
   .bytes [0x8C#8, 0x00#8], .bytes [0xF9#8, 0xFF#8], .bytes [0x8C#8, 0x3C#8], .bytes [0xF8#8, 0xC6#8],
   .bytes [0x70#8, 0x17#8]]

/-- The machine after V-5: ENV READY with the datasheet's coefficients. -/
def envReady : State := { base with envState := .ready, calValid := true, coef := coefficients }

/-- The machine while `env.init` runs. -/
def envInitializing : State := { base with envState := .initializing }

/-- The machine with SEG READY, as 95_test_vectors.md 3.9 starts. -/
def segReady : State := { base with segState := .ready }

/-- The machine with all three engines RELEASED. -/
def released : State :=
  { base with ledState := .released, envState := .released, segState := .released, pins := Pins.released }

/-- The machine with SEG READY and the other two engines RELEASED. -/
def segOnly : State := { released with segState := .ready }

/-- The machine after `led.set 3` of row L-4: colour 0x102030 at level 15. -/
def led3Set : State := { base with led := base.led.set 3 ⟨15#5, 0x10#8, 0x20#8, 0x30#8⟩ }

/-! ## WellFormed smoke test: the one check, an operand beyond 8 bits (30_encoding.md R100) -/

theorem test_wellFormed_refuses_led_set_256 : (Instr.ledSet 256).wellFormed = false := by decide
theorem test_wellFormed_refuses_led_on_256 : (Instr.ledOn 256).wellFormed = false := by decide
theorem test_wellFormed_refuses_led_off_256 : (Instr.ledOff 256).wellFormed = false := by decide
theorem test_wellFormed_refuses_seg_show_256 : (Instr.segShow 256 .left).wellFormed = false := by decide
theorem test_wellFormed_admits_255 : (Instr.segShow 255 .right).wellFormed = true := by decide

/-! ## Decoding: words written out from 30_encoding.md R91 and R93, RSV | F | IDX | OP -/

theorem test_decode_nop : decode 0b000000000000000_0_00000000_00000000#32 = some .nop := by decide
theorem test_decode_ledSet : decode 0b000000000000000_0_00000011_00000001#32 = some (.ledSet 3) := by decide
theorem test_decode_ledSetAll : decode 0b000000000000000_1_00000000_00000001#32 = some .ledSetAll := by decide
theorem test_decode_ledOn : decode 0b000000000000000_0_11111111_00000010#32 = some (.ledOn 255) := by decide
theorem test_decode_ledOnAll : decode 0b000000000000000_1_00000000_00000010#32 = some .ledOnAll := by decide
theorem test_decode_ledOff : decode 0b000000000000000_0_00000110_00000011#32 = some (.ledOff 6) := by decide
theorem test_decode_ledOffAll : decode 0b000000000000000_1_00000000_00000011#32 = some .ledOffAll := by decide
theorem test_decode_ledFlush : decode 0b000000000000000_0_00000000_00000100#32 = some .ledFlush := by decide
theorem test_decode_ledDispose : decode 0b000000000000000_0_00000000_00000101#32 = some .ledDispose := by decide
theorem test_decode_envInit : decode 0b000000000000000_0_00000000_00010000#32 = some .envInit := by decide
theorem test_decode_envReadT : decode 0b000000000000000_0_00000000_00010001#32 = some .envReadT := by decide
theorem test_decode_envReadP : decode 0b000000000000000_0_00000000_00010010#32 = some .envReadP := by decide
theorem test_decode_envDispose : decode 0b000000000000000_0_00000000_00010011#32 = some .envDispose := by decide
theorem test_decode_segInit : decode 0b000000000000000_0_00000000_00100000#32 = some .segInit := by decide
theorem test_decode_segShow : decode 0b000000000000000_1_00000010_00100001#32 = some (.segShow 2 .right) := by decide
theorem test_decode_segDispose : decode 0b000000000000000_0_00000000_00100010#32 = some .segDispose := by decide
theorem test_decode_disposeAll : decode 0b000000000000000_0_00000000_00110000#32 = some .disposeAll := by decide

/-- 95_test_vectors.md 3.1, rows E-3, E-5, E-7 to E-11, E-15, E-16: illegal words, named by their kind. -/
theorem test_decode_illegal :
    [0x00FF0001#32, 0x00010301#32, 0x00000104#32, 0x00010004#32, 0x00020004#32, 0x00000006#32, 0x00000106#32,
     0x00000031#32, 0x000000FF#32, 0x00000014#32, 0x00000023#32, 0x80000010#32].map decode = List.replicate 12 none ∧
    [0x00FF0001#32, 0x00010301#32, 0x00000104#32, 0x00010004#32, 0x00020004#32, 0x00000006#32].map illegalKind =
      [.reservedBits, .allWithIndex, .classNOperand, .classNOperand, .reservedBits, .unassignedOpcode] := by decide

/-- The reference parameters of 00_scope.md R7 are accepted, and `SEG_ADDR` is 0x70. -/
theorem test_build_reference :
    Config.build (Config.reference fixture) = some params ∧ Config.segAddr params = 0x70#7 := by decide

/-! ## LED (95_test_vectors.md 3.3) -/

/-- L-1. -/
theorem test_ledSet_2 : gives (exec (.ledSet 2) (at' (.ledSet 2) 0x00FF0000#32 0x00008000#32 0 [] base)) (fun t =>
    hostReg t 0x48#8 == 0xEFFF0000#32 && hostReg t 0x40#8 == 0xE0000000#32 && t.pinTrace.isEmpty) = true := by decide

/-- L-6. -/
theorem test_ledSet_7_invalid : gives (exec (.ledSet 7) (running (.ledSet 7) base)) (statusIs 0x00000840#32) = true := by
  decide

/-- P1: `led.set.all` with ARG0 0x00FF0000 and ARG1 0x00008000. -/
theorem test_ledSetAll : gives (exec .ledSetAll (at' .ledSetAll 0x00FF0000#32 0x00008000#32 0 [] base)) (fun t =>
    hostReg t 0x40#8 == 0xEFFF0000#32 && hostReg t 0x58#8 == 0xEFFF0000#32 && t.latch.busy == false) = true := by decide

/-- L-8: with `wt` = 1 the first event is CS = 0, before completion. -/
theorem test_ledSetAll_writeThrough :
    gives (exec .ledSetAll (writeThrough (at' .ledSetAll 0x000000FF#32 0x00010000#32 0 [] base))) (fun t =>
      t.pinTrace == [⟨.cs, .low⟩] && t.latch.busy && t.led == base.led) = true := by decide

/-- L-5: the last command, on the array L-4 leaves. -/
theorem test_ledOn_3 : gives (exec (.ledOn 3) (running (.ledOn 3) led3Set)) (fun t => hostReg t 0x4C#8 == 0xEFFFFFFF#32) = true := by
  decide

/-- L-3. -/
theorem test_ledOnAll : gives (exec .ledOnAll (running .ledOnAll base)) (fun t =>
    hostReg t 0x40#8 == 0xE0FFFFFF#32 && hostReg t 0x58#8 == 0xE0FFFFFF#32) = true := by decide

/-- L-4: the level is kept. -/
theorem test_ledOff_3 : gives (exec (.ledOff 3) (running (.ledOff 3) led3Set)) (fun t => hostReg t 0x4C#8 == 0xEF000000#32) = true := by
  decide

/-- L-7. -/
theorem test_ledOff_255 : gives (exec (.ledOff 255) (running (.ledOff 255) base)) (statusIs 0x00000840#32) = true := by decide

/-- L-4, for every LED. -/
theorem test_ledOffAll : gives (exec .ledOffAll (running .ledOffAll led3Set)) (fun t => hostReg t 0x4C#8 == 0xEF000000#32) = true := by
  decide

/-- L-8: the bytes of the stream after the start frame are FF FF 00 00 in the order brightness, B, G, R. -/
theorem test_ledFlush_bytes :
    receiverGroup (streamOf (Vector.replicate 7 ⟨31#5, 0#8, 0#8, 0xFF#8⟩)) 6 = (0xFF#8, 0xFF#8, 0x00#8, 0x00#8) := by decide

/-- L-10: the first event of a flush. -/
theorem test_ledFlush_first : gives (exec .ledFlush (running .ledFlush base)) (fun t =>
    t.pinTrace == [⟨.cs, .low⟩] && t.latch.pos == 1 && t.latch.busy) = true := by decide

/-- P6: the completion of the LED body keeps the level and clears the colour. -/
theorem test_ledDispose_completes :
    gives (exec .ledDispose (at' .ledDispose 0#32 0#32 815 [] led3Set)) (fun t =>
      hostReg t 0x4C#8 == 0xEF000000#32 && enginesAre 0x00000004#32 t && statusIs 0x00000000#32 t) = true := by decide +kernel

/-- L-9. -/
theorem test_ledDispose_released :
    gives (exec .ledDispose (running .ledDispose released)) (fun t => statusIs 0x00000430#32 t && t.pinTrace.isEmpty) = true := by
  decide

/-! ## ENV (95_test_vectors.md 3.8) -/

/-- V-2: the completion step. -/
theorem test_envInit_not_found :
    gives (exec .envInit (at' .envInit 0#32 0#32 1 [.ack false] envInitializing)) (fun t =>
      enginesAre 0x00000032#32 t && statusIs 0x00000110#32 t) = true := by decide

/-- V-5: the completion step; `coef` as P2 lists it. -/
theorem test_envInit_completes :
    gives (exec .envInit (at' .envInit 0#32 0#32 15 initAnswers envInitializing)) (fun t =>
      enginesAre 0x00000022#32 t && statusIs 0x00000000#32 t && t.coef == coefficients && t.calValid &&
      [coefInt t 0, coefInt t 2, coefInt t 3, coefInt t 8] == [27504, -1000, 36477, -7]) = true := by decide +kernel

/-- V-7: the completion step. -/
theorem test_envReadT : gives (exec .envReadT (at' .envReadT 0#32 0#32 1 [.bytes [0x7E#8, 0xED#8, 0x00#8]] envReady)) (fun t =>
    t.result0 == 0x0001F5A6#32 && t.result1 == 0x0007EED0#32 && t.result2 == 0x0001F5A6#32) = true := by decide +kernel

/-- V-1. -/
theorem test_envReadT_not_ready : gives (exec .envReadT (running .envReadT { base with result0 := 5#32 })) (fun t =>
    t.result0 == 0#32 && statusIs 0x00000430#32 t && t.busTrace.isEmpty) = true := by decide

/-- V-8: the completion step. -/
theorem test_envReadP :
    gives (exec .envReadP (at' .envReadP 0#32 0#32 2 [.bytes [0x7E#8, 0xED#8, 0x00#8], .bytes [0x65#8, 0x5A#8, 0xC0#8]] envReady))
      (fun t => t.result0 == 0x01892D41#32 && t.result1 == 0x000655AC#32 && t.result2 == 0x0001F5A6#32) = true := by
  decide +kernel

/-- P5: P1 = 0 gives ARITH_GUARD. -/
theorem test_envReadP_guard :
    gives (exec .envReadP (at' .envReadP 0#32 0#32 2 [.bytes [0x7E#8, 0xED#8, 0x00#8], .bytes [0x65#8, 0x5A#8, 0xC0#8]]
      { envReady with coef := coefficients.set 3 0#16 }))
      (fun t => t.result0 == 0#32 && t.result2 == 0x0001F5A6#32 && statusIs 0x00001050#32 t) = true := by decide +kernel

/-- V-9, first command. -/
theorem test_envDispose : gives (exec .envDispose (running .envDispose envReady)) (fun t =>
    enginesAre 0x00000042#32 t && t.calValid == false && t.busTrace.isEmpty) = true := by decide

/-! ## SEG (95_test_vectors.md 3.9) -/

/-- G-I1: the first event, and the last write. -/
theorem test_segInit_probes :
    gives (exec .segInit (running .segInit { base with ackTape := [true] })) (fun t =>
      t.busTrace == [.probe 0x70#7 true] && enginesAre 0x00000102#32 t) = true ∧
    gives (exec .segInit (at' .segInit 0#32 0#32 3 [.ack true] { base with segState := .initializing })) (fun t =>
      t.busTrace == [.write 0x70#7 [0xEF#8]]) = true := by decide

/-- G-I2: the completion step. -/
theorem test_segInit_not_found :
    gives (exec .segInit (at' .segInit 0#32 0#32 1 [.ack false] { base with segState := .initializing }))
      (enginesAre 0x00000302#32) = true := by decide

/-- G-A1: the bytes written, and the frame the completion commits. -/
theorem test_segShow_AB_right :
    gives (exec (.segShow 2 .right) (at' (.segShow 2 .right) 0x00004241#32 0#32 0 [] segReady)) (fun t =>
      t.busTrace == [.write 0x70#7 [0x00#8, 0x00#8, 0x00#8, 0x00#8, 0x00#8, 0xF7#8, 0x00#8, 0x8F#8, 0x12#8]]) = true ∧
    gives (exec (.segShow 2 .right) (at' (.segShow 2 .right) 0x00004241#32 0#32 1 [] segReady)) (fun t =>
      hostReg t 0x28#8 == 0x00000000#32 && hostReg t 0x2C#8 == 0x128F00F7#32) = true := by decide

/-- G-L5. -/
theorem test_segShow_5_invalid :
    gives (exec (.segShow 5 .right) (at' (.segShow 5 .right) 0x31304948#32 0#32 0 [] segReady)) (fun t =>
      statusIs 0x00000840#32 t && t.busTrace.isEmpty && t.frame == segReady.frame) = true := by decide

/-- P6: the blank frame write of the SEG body. -/
theorem test_segDispose_blank : gives (exec .segDispose (running .segDispose segReady)) (fun t =>
    t.busTrace == [.write 0x70#7 (List.replicate 9 0x00#8)]) = true := by decide

/-! ## Block commands and the register block -/

/-- S-6: `nop` after S-5. -/
theorem test_nop : gives (exec .nop (running .nop { base with code := .invalidInput })) (statusIs 0x00000000#32) = true := by decide

/-- P6: the completion of the first `dispose.all`, and the second one's only step. -/
theorem test_disposeAll :
    gives (exec .disposeAll (at' .disposeAll 0#32 0#32 816 [] segReady)) (enginesAre 0x00000444#32) = true ∧
    gives (exec .disposeAll (running .disposeAll { released with sticky := 0x04#7 })) (fun t =>
      statusIs 0x00000400#32 t && t.pinTrace.isEmpty && t.busTrace.isEmpty) = true := by decide +kernel

/-- S-2: an illegal word after S-1. -/
theorem test_illegal_word :
    gives (step { base with code := .notReady, sticky := 0x04#7, latch := { Latch.atReset with busy := true, op := 0x00000106#32 } })
      (statusIs 0x00002460#32) = true := by decide

/-- S-4. -/
theorem test_status_clear :
    gives (hostAccess (.write 0x0C#8 4 0x00000400#32) { base with code := .invalidInput, sticky := 0x2C#7 })
      (statusIs 0x00002840#32) = true := by decide

/-- S-7 and the overrun variant of P4. -/
theorem test_overrun : gives (hostAccess (.write 0x00#8 4 0x00000010#32) (running .ledFlush base)) (fun t =>
    hostReg t 0x0C#8 == 0x00004001#32 && t.latch.op == encode .ledFlush) = true := by decide

/-! ## Formulas and host programs -/

/-- T-4, T-7, P-2, P-7, P-8 of 95_test_vectors.md 3.6 and 3.7. -/
theorem test_compensation :
    compT 0x80000 27504 26435 (-1000) = 135479 ∧ compT 0xFFFFF 0 32767 (-32768) = -16 ∧
    compP 0 128422 36477 (-10685) 3024 2855 140 (-7) 15500 (-14600) 6000 = some 0x02A48F7F#32 ∧
    compP 0x655AC 128000 1 0 0 0 0 0 0 0 0 = some 0xF866C800#32 ∧
    compP 0xFFFFF 128000 1 0 0 0 0 0 0 0 0 = some 0x00186A00#32 := by decide +kernel

/-- Section 2 of 95_test_vectors.md: 1006.5325390625 hPa and 25.082421875 °C. -/
theorem test_units : hectopascalOf 0x01892D41#32 = 10065325390625 / 10000000000 ∧
    celsiusOf 0x0001F5A6#32 = 25082421875 / 1000000000 := by
  decide +kernel

/-- The text of P3 steps 2 and 3, assembled. -/
theorem test_assemble :
    assemble ["wr ARG0, 0x00004241 ; AB".toList, "seg.show 2, r".toList, "wait".toList, "rd SEG_FRAME23".toList] =
      some [.host (.write 0x04#8 4 0x00004241#32), .host (.write 0x00#8 4 0x00010221#32), .wait, .host (.read 0x2C#8 4)] := by
  decide +kernel

/-- A `;` inside the quotes is text, one after them starts a comment (log 27). -/
theorem test_parse_semicolon : parseLine "seg.text \"A;B\", l ; AB".toList = some [.segText [0x41#8, 0x3B#8, 0x42#8] .left] := by
  decide +kernel

/-- The form 95_test_vectors.md writes for a read is taken as notation (log 27): only `rd REG` is a spelling. -/
theorem test_parse_rd : parseLine "rd STATUS".toList = some [.rd 0x0C#8] ∧
    parseLine "rd STATUS -> 0x00000000".toList = none := by decide +kernel

/-- `seg.text` of 30_encoding.md R101: P3 step 5, as one statement. -/
theorem test_assemble_text :
    assemble ["seg.text \"HI01\", r".toList] =
      some [.host (.write 0x04#8 4 0x31304948#32), .host (.write 0x00#8 4 0x00010421#32)] := by
  decide +kernel

/-! ## Witnesses: states and operands that meet the hypotheses of each statement, clause by clause -/

/-- `env.init` accepted with every answer supplied. -/
def envInitAccepted : State :=
  running .envInit { base with
    ackTape := [true]
    byteTape := [0x58#8, 0x70#8, 0x6B#8, 0x43#8, 0x67#8, 0x18#8, 0xFC#8, 0x7D#8, 0x8E#8, 0x43#8, 0xD6#8, 0xD0#8, 0x0B#8,
      0x27#8, 0x0B#8, 0x8C#8, 0x00#8, 0xF9#8, 0xFF#8, 0x8C#8, 0x3C#8, 0xF8#8, 0xC6#8, 0x70#8, 0x17#8] }

/-- The state in which `env.init` takes its completion step. -/
def envInitLast : State := at' .envInit 0#32 0#32 15 initAnswers envInitializing

theorem accepted_running (i : Instr) (s : State) (hs : s.script = []) (hd : decode (encode i) = some i) :
    Accepted i (running i s) := ⟨hs, ⟨rfl, hd⟩, rfl, rfl⟩

theorem witness_DecodeOfEncode : (Instr.ledSet 0).wellFormed = true ∧ (Instr.ledOn 255).wellFormed = true ∧
    (Instr.segShow 255 .right).wellFormed = true ∧ Instr.disposeAll.wellFormed = true := by decide

theorem witness_EncodeOfDecode : decode 0x0001FF21#32 = some (.segShow 255 .right) ∧ decode 0#32 = some .nop := by decide

theorem witness_IllegalWordsCompleteIllegal :
    let s := { base with latch := { Latch.atReset with busy := true, op := 0x80000010#32 } }
    s.script = [] ∧ s.latch.busy = true ∧ decode s.latch.op = none := by decide

theorem witness_StepRunsDecodedCommand :
    ((running .nop base).script = [] ∧ Running .nop (running .nop base)) ∧
    ((scripted [.sequencer] (running .nop base)).script = .sequencer :: [] ∧
      Running .nop (scripted [.sequencer] (running .nop base))) ∧
    (base.script = [] ∧ base.latch.busy = false) ∧
    ((scripted [.wait] (running .nop base)).script = .wait :: [] ∧ Running .nop (scripted [.wait] (running .nop base))) ∧
    ((scripted [.wait, .sequencer] base).script = .wait :: [.sequencer] ∧ (scripted [.wait, .sequencer] base).latch.busy = false) ∧
    ((scripted [.clearDuring 0x00007F00#32] (running .nop base)).script = .clearDuring 0x00007F00#32 :: [] ∧
      Running .nop (scripted [.clearDuring 0x00007F00#32] (running .nop base))) ∧
    (scripted [.host (.read 0x0C#8 4), .wait] base).script = .host (.read 0x0C#8 4) :: [.wait] ∧
    decodeTableWord 32 0x10221 = some (.segShow 2 .right) := by unfold Running; decide

theorem witness_OneEventOrCompletion : (running .ledFlush base).latch.busy = true := rfl

theorem witness_CommitOnlyAtCompletion :
    (∃ t, (running .ledFlush base).latch.busy = true ∧ exec .ledFlush (running .ledFlush base) = .next t ∧
      t.latch.busy = true) ∧
    (∃ t, Accepted .envInit envInitAccepted ∧ runSteps 1 envInitAccepted = .next t ∧ t.latch.busy = true ∧
      (0x0C#8 ≠ 0x24#8)) :=
  ⟨⟨_, rfl, rfl, rfl⟩, ⟨_, accepted_running _ _ rfl (by decide), rfl, rfl, by decide⟩⟩

theorem witness_CompletionReportsOneCode : ∃ t, (running (.segShow 5 .left) segReady).latch.busy = true ∧
    exec (.segShow 5 .left) (running (.segShow 5 .left) segReady) = .next t ∧ t.latch.busy = false := ⟨_, rfl, rfl, rfl⟩

theorem witness_OperandsAreLatched :
    base.latch.busy = false ∧ ∃ t, exec .ledSetAll (running .ledSetAll base) = .next t := ⟨rfl, _, rfl⟩

theorem witness_AcceptedCommandCompletes : Accepted .disposeAll (running .disposeAll segReady) :=
  accepted_running _ _ rfl (by decide)

theorem witness_CommandAcceptedOrDropped : (running .ledFlush base).latch.busy = true ∧ base.latch.busy = false := by decide

theorem witness_StatusWriteOneToClear : ∃ t,
    let s := scripted [.clearDuring 0x00007F00#32] (running .envReadT base)
    s.script = .clearDuring 0x00007F00#32 :: [] ∧ s.latch.busy = true ∧ step s = .next t ∧ t.latch.busy = false :=
  ⟨_, rfl, rfl, rfl, rfl⟩

theorem witness_CtrlHoldsWriteThrough :
    (∃ t, base.latch.busy = false ∧ hostAccess (.write 0x00#8 4 0x00000004#32) base = .next t) ∧
    ∃ t, exec .ledSetAll (running .ledSetAll base) = .next t := ⟨⟨_, rfl, rfl⟩, ⟨_, rfl⟩⟩

theorem witness_EngStateShowsReadiness :
    ((running .envInit base).envState = .uninitialized ∧ (running .envInit base).latch.busy = true) ∧
    ((running .envInit envInitializing).envState = .initializing ∧ (running .envInit envInitializing).latch.busy = true) ∧
    ((running .segInit base).segState = .uninitialized ∧ (running .segInit base).latch.busy = true) := by decide

/-- The first and last reserved offsets, the hole after `LED[6]`, and the first and last read-only registers. -/
theorem witness_ReservedAndReadOnlyOffsets :
    (∀ off ∈ [0x30#8, 0x3C#8, 0x5C#8, 0xFC#8], off.toNat % 4 = 0 ∧
      off ∉ [0x00#8, 0x04#8, 0x08#8, 0x0C#8, 0x10#8, 0x14#8, 0x18#8, 0x1C#8, 0x20#8, 0x24#8, 0x28#8, 0x2C#8,
             0x40#8, 0x44#8, 0x48#8, 0x4C#8, 0x50#8, 0x54#8, 0x58#8]) ∧
    (∀ off ∈ [0x10#8, 0x18#8, 0x20#8, 0x58#8, 0xFC#8], off.toNat % 4 = 0 ∧
      off ∉ [0x00#8, 0x04#8, 0x08#8, 0x0C#8, 0x1C#8]) := by decide

theorem witness_HostAccessesDefinedAndRefused :
    ((0x00#8).toNat % 4 = 0 ∧ (0xFC#8).toNat % 4 = 0) ∧ ((2 : Nat) ≠ 4 ∨ (0x04#8).toNat % 4 ≠ 0) ∧
    ((4 : Nat) ≠ 4 ∨ (0xFF#8).toNat % 4 ≠ 0) := by decide

theorem witness_ResetLeavesTheTable :
    (scripted [.reset, .wait] (running .ledFlush segReady)).script = .reset :: [.wait] := rfl

/-- A table with equal addresses, one without a space entry, and an accepted one. -/
theorem witness_BadParametersRefused :
    let r := Config.reference fixture
    (({ r with segAddr := 0x77#7 } : RawParams).envAddr = ({ r with segAddr := 0x77#7 } : RawParams).segAddr) ∧
    (({ r with charset := [] } : RawParams).charset.lookup 0x20#8 = none) ∧ Config.build r = some params := by decide

theorem base_consistent : Consistent base := by unfold Consistent Running; decide

theorem witness_StepKeepsTheInvariant : ∃ t, Consistent envInitAccepted ∧ step envInitAccepted = .next t :=
  ⟨_, by unfold Consistent Running; decide, rfl⟩

theorem witness_ReadinessTransitions :
    ∃ t, Consistent envInitLast ∧ step envInitLast = .next t ∧ envInitLast.script.head? ≠ some .reset :=
  ⟨_, by unfold Consistent Running; decide, rfl, by decide⟩

theorem witness_ReleasedEnginesStaySilent :
    ∃ t, step (running .disposeAll released) = .next t ∧ (running .disposeAll released).ledState = .released ∧
      (running .disposeAll released).envState = .released ∧ (running .disposeAll released).segState = .released :=
  ⟨_, rfl, rfl, rfl, rfl⟩

theorem witness_CoefficientsImmutableAndHidden :
    ∃ t, step envInitLast = .next t ∧ t.coef ≠ envInitLast.coef := ⟨_, rfl, by decide +kernel⟩

/-- Both ends of each clause's range. -/
theorem witness_BrightnessQuantised :
    (0 ≤ (0x00000000#32).toInt ∧ (0x00000000#32).toInt ≤ 65536) ∧ (0 ≤ (0x00010000#32).toInt ∧ (0x00010000#32).toInt ≤ 65536) ∧
    (0xFFFFFFFF#32).toInt < 0 ∧ (0x80000000#32).toInt < 0 ∧ 65536 ≤ (0x00010000#32).toInt ∧ 65536 ≤ (0x7FFFFFFF#32).toInt ∧
    (0 ≤ (0x00000842#32).toInt ∧ (0x00000842#32).toInt < 2115) := by decide

theorem witness_LedCommandsNotReady : released.ledState ≠ .ready ∧
    Instr.ledDispose ∈ [Instr.ledSet 0, .ledSetAll, .ledOn 0, .ledOnAll, .ledOff 0, .ledOffAll, .ledFlush, .ledDispose] := by decide

theorem witness_LedTargetsResolved : (0 < 7 ∧ 6 < 7) ∧ (7 ≤ 7 ∧ 7 ≤ 255) ∧ base.ledState = .ready ∧
    Instr.ledOff 7 ∈ [Instr.ledSet 7, .ledOn 7, .ledOff 7] := by decide

/-- The hypotheses of the three statements about stores: no write-through, and the end of a write-through flush. -/
theorem witness_LedSetStores : base.ledState = .ready ∧ (base.latch.wt = false ∨ 812 ≤ base.latch.pos) ∧ (0 < 7 ∧ 6 < 7) ∧
    ((writeThrough (at' .ledSetAll 0#32 0#32 812 [] base)).ledState = .ready ∧
      812 ≤ (writeThrough (at' .ledSetAll 0#32 0#32 812 [] base)).latch.pos) := by decide

theorem witness_LedOnStoresWhite : led3Set.ledState = .ready ∧ (led3Set.latch.wt = false ∨ 812 ≤ led3Set.latch.pos) ∧
    (0 < 7 ∧ 6 < 7) := by decide

theorem witness_LedOffStoresBlack : led3Set.ledState = .ready ∧ (led3Set.latch.wt = false ∨ 812 ≤ led3Set.latch.pos) ∧
    (0 < 7 ∧ 6 < 7) := by decide

theorem witness_WriteThroughFlushes :
    (∃ arr, base.ledState = .ready ∧
      changedLeds (.ledOn 6) (writeThrough (at' (.ledOn 6) 0#32 0#32 811 [] base)) = some arr ∧
      (writeThrough (at' (.ledOn 6) 0#32 0#32 811 [] base)).latch.wt = true ∧ (flushEvents arr)[811]? = some ⟨.cs, .high⟩) ∧
    (base.ledState = .ready ∧ 7 ≤ 7) ∧ released.ledState ≠ .ready ∧ base.latch.wt = false :=
  ⟨⟨_, rfl, rfl, rfl, by decide +kernel⟩, ⟨rfl, by decide⟩, by decide, rfl⟩

theorem witness_LedFlushSendsAndCompletes : base.ledState = .ready ∧ (flushEvents base.led)[0]? = some ⟨.cs, .low⟩ ∧
    812 ≤ (at' .ledFlush 0#32 0#32 812 [] base).latch.pos := by decide

theorem witness_LedDisposeTurnsOffAndReleases : base.ledState = .ready ∧
    (flushEvents (base.led.map fun e => (⟨e.level, 0#8, 0#8, 0#8⟩ : LedEntry)) ++ [⟨.data, .z⟩, ⟨.clk, .z⟩, ⟨.cs, .z⟩])[814]? =
      some ⟨.cs, .z⟩ ∧
    815 ≤ (at' .ledDispose 0#32 0#32 815 [] base).latch.pos := by decide +kernel

theorem witness_FlushRunsToCompletion :
    (∃ arr, Accepted .ledFlush (running .ledFlush base) ∧ (running .ledFlush base).ledState = .ready ∧
      changedLeds .ledFlush (running .ledFlush base) = some arr) ∧
    (∃ arr, Accepted (.ledSet 6) (writeThrough (running (.ledSet 6) base)) ∧ base.ledState = .ready ∧
      changedLeds (.ledSet 6) (writeThrough (running (.ledSet 6) base)) = some arr ∧
      (writeThrough (running (.ledSet 6) base)).latch.wt = true) :=
  ⟨⟨_, accepted_running _ _ rfl (by decide), rfl, rfl⟩, ⟨_, ⟨rfl, ⟨rfl, by decide⟩, rfl, rfl⟩, rfl, rfl, rfl⟩⟩

theorem witness_LedDisposeRunsToCompletion :
    Accepted .ledDispose (running .ledDispose base) ∧ (running .ledDispose base).ledState = .ready :=
  ⟨accepted_running _ _ rfl (by decide), rfl⟩

theorem witness_FlushEventAtEachIndex : (0 < 36 ∧ 35 < 36) ∧ (0 < 8 ∧ 7 < 8) ∧ (0 < 32 ∧ 31 < 32) ∧
    [0xE0#8 ||| base.led[6].level.zeroExtend 8, base.led[6].b, base.led[6].g, base.led[6].r][3]? = some 0#8 := by decide

theorem witness_FlushBitStream : Pins.idle.clk = .low ∧
    flushEvents base.led = [⟨.cs, .low⟩, ⟨.data, .low⟩] ++ ⟨.clk, .high⟩ :: (flushEvents base.led).drop 3 ∧
    (36 ≤ 36 ∧ 36 + 32 ≤ 260) ∧ (36 ≤ 228 ∧ 228 + 32 ≤ 260) ∧ (0 < 36 ∧ 35 < 36) ∧ (0 < 32 ∧ 31 < 32) ∧ (0 < 3 ∧ 2 < 3) ∧
    (0 < 8 ∧ 7 < 8) ∧
    [0xE0#8 ||| base.led[0].level.zeroExtend 8, base.led[0].b, base.led[0].g, base.led[0].r][0]? = some 0xE0#8 := by
  decide +kernel

theorem witness_ReceiverTakesTheArray : Pins.idle.clk = .low := rfl

theorem witness_EnvInitChecks :
    envReady.envState = .ready ∧ ({ base with envState := .failed } : State).envState = .failed ∧
    released.envState = .released ∧
    ((running .envInit base).envState = .uninitialized ∧ (running .envInit base).latch.pos = 0) ∧
    (∀ b, (at' .envInit 0#32 0#32 1 [.ack b] envInitializing).envState = .initializing ∧
      (at' .envInit 0#32 0#32 1 [.ack b] envInitializing).latch.pos = 1 ∧
      (at' .envInit 0#32 0#32 1 [.ack b] envInitializing).latch.rx = [.ack b]) ∧
    ((at' .envInit 0#32 0#32 2 [.ack true, .bytes [0x60#8]] envInitializing).envState = .initializing ∧
      (at' .envInit 0#32 0#32 2 [.ack true, .bytes [0x60#8]] envInitializing).latch.pos = 2 ∧
      (at' .envInit 0#32 0#32 2 [.ack true, .bytes [0x60#8]] envInitializing).latch.rx = [.ack true, .bytes [0x60#8]] ∧
      (0x60#8 ≠ envInitializing.params.envSignature)) := by decide

theorem witness_EnvInitCommits : envInitLast.envState = .initializing ∧ envInitLast.latch.pos = 15 ∧
    envInitLast.latch.rx = [.ack true, .bytes [envInitLast.params.envSignature]] ++
      List.ofFn (fun k : Fin 12 => .bytes [coefficients[k].extractLsb' 0 8, coefficients[k].extractLsb' 8 8]) := by
  decide +kernel

theorem witness_EnvInitRunsToReady : Accepted .envInit envInitAccepted ∧ envInitAccepted.envState = .uninitialized ∧
    nextAck envInitAccepted = true ∧ byteAhead envInitAccepted 0 = envInitAccepted.params.envSignature :=
  ⟨accepted_running _ _ rfl (by decide), rfl, rfl, rfl⟩

theorem witness_EnvReadTReports : base.envState ≠ .ready ∧ envReady.envState = .ready ∧
    (running .envReadT envReady).latch.pos = 0 ∧
    (at' .envReadT 0#32 0#32 1 [.bytes [0xFF#8, 0xFF#8, 0xFF#8]] envReady).latch.pos = 1 ∧
    (at' .envReadT 0#32 0#32 1 [.bytes [0xFF#8, 0xFF#8, 0xFF#8]] envReady).latch.rx = [.bytes [0xFF#8, 0xFF#8, 0xFF#8]] := by
  decide

/-- Both endings of the last clause: GUARD when the captured P1 is 0, a pressure with the datasheet's coefficients. -/
theorem witness_EnvReadPReports : base.envState ≠ .ready ∧ envReady.envState = .ready ∧
    (running .envReadP envReady).latch.pos = 0 ∧
    (at' .envReadP 0#32 0#32 1 [.bytes [0#8, 0#8, 0#8]] envReady).latch.rx = [.bytes [0#8, 0#8, 0#8]] ∧
    (at' .envReadP 0#32 0#32 2 [.bytes [0#8, 0#8, 0#8], .bytes [1#8, 2#8, 3#8]] envReady).latch.rx =
      [.bytes [0#8, 0#8, 0#8], .bytes [1#8, 2#8, 3#8]] ∧
    pressureOf { envReady with coef := coefficients.set 3 0#16 } (raw20 0x65#8 0x5A#8 0xC0#8) 128422 = none ∧
    pressureOf envReady (raw20 0x65#8 0x5A#8 0xC0#8) 128422 = some 0x01892D41#32 := by decide +kernel

theorem witness_EnvReadPRunsOnFreshSamples :
    Accepted .envReadP (running .envReadP envReady) ∧ (running .envReadP envReady).envState = .ready :=
  ⟨accepted_running _ _ rfl (by decide), rfl⟩

theorem witness_EnvDisposeReleases : base.envState ≠ .released ∧ released.envState = .released := by decide

theorem witness_SegInitBringsUp :
    let s := fun pos b => at' .segInit 0#32 0#32 pos [.ack b] { base with segState := .initializing }
    segReady.segState = .ready ∧ ({ base with segState := .failed } : State).segState = .failed ∧
    released.segState = .released ∧ ((running .segInit base).segState = .uninitialized ∧ (running .segInit base).latch.pos = 0) ∧
    ((s 1 false).segState = .initializing ∧ (s 1 false).latch.pos = 1 ∧ (s 1 false).latch.rx = [.ack false]) ∧
    ((s 1 true).latch.rx = [.ack true] ∧ 1 ≤ (s 1 true).latch.pos ∧
      [0x21#8, 0x81#8, 0xEF#8][(s 1 true).latch.pos - 1]? = some 0x21#8) ∧
    [0x21#8, 0x81#8, 0xEF#8][(s 3 true).latch.pos - 1]? = some 0xEF#8 ∧ 4 ≤ (s 4 true).latch.pos := by decide

theorem witness_SegInitRunsToReady :
    ∀ b, Accepted .segInit (running .segInit { base with ackTape := [b] }) ∧
      (running .segInit { base with ackTape := [b] }).segState = .uninitialized ∧
      nextAck (running .segInit { base with ackTape := [b] }) = b := fun _ => ⟨accepted_running _ _ rfl (by decide), rfl, rfl⟩

theorem witness_SegShowWritesTheFrame : base.segState ≠ .ready ∧ segReady.segState = .ready ∧ (4 < 5 ∧ 4 < 255) ∧
    (0 ≤ 4 ∧ 4 ≤ 4) ∧ (running (.segShow 4 .right) segReady).latch.pos = 0 ∧
    1 ≤ (at' (.segShow 4 .right) 0#32 0#32 1 [] segReady).latch.pos := by decide

theorem witness_TextAlignedWithSpaceFallback : (0 ≤ 4 ∧ 4 ≤ 4) ∧ Config.charset params 0x41#8 = some 0x00F7#16 ∧
    Config.charset params 0x07#8 = none := by decide

theorem witness_SegDisposeBlanksAndReleases : released.segState = .released ∧ segReady.segState = .ready ∧
    (running .segDispose segReady).latch.pos = 0 ∧ 1 ≤ (at' .segDispose 0#32 0#32 1 [] segReady).latch.pos ∧
    (base.segState ≠ .ready ∧ base.segState ≠ .released) := by decide

theorem witness_NopCompletesOk : base.script = [] ∧ base.latch.busy = false := by decide

/-- Each clause at its boundary positions: the last LED event, the frame write with the LED events before it and without
them, and the completion with every event sent, with the LED's alone, with the frame write alone, and with none. -/
theorem witness_DisposeAllCommits :
    (segReady.ledState ≠ .released ∧
      (flushEvents (segReady.led.map fun e => (⟨e.level, 0#8, 0#8, 0#8⟩ : LedEntry)) ++
        [⟨.data, .z⟩, ⟨.clk, .z⟩, ⟨.cs, .z⟩])[(at' .disposeAll 0#32 0#32 814 [] segReady).latch.pos]? = some ⟨.cs, .z⟩) ∧
    (∀ c ∈ [(815, segReady), (0, segOnly)],
      let s := at' .disposeAll 0#32 0#32 c.1 [] c.2
      s.segState = .ready ∧ s.latch.pos = if s.ledState = .released then 0 else 815) ∧
    (∀ c ∈ [(816, segReady), (815, base), (1, segOnly), (0, released)],
      let s := at' .disposeAll 0#32 0#32 c.1 [] c.2
      (if s.ledState = .released then 0 else 815) + (if s.segState = .ready then 1 else 0) ≤ s.latch.pos) := by
  decide +kernel

/-- Straight after reset, with SEG READY, with SEG alone not RELEASED, with ENV alone RELEASED, and with all RELEASED. -/
theorem witness_DisposeAllRunsInOrder :
    Accepted .disposeAll (running .disposeAll base) ∧ Accepted .disposeAll (running .disposeAll segReady) ∧
    Accepted .disposeAll (running .disposeAll segOnly) ∧
    Accepted .disposeAll (running .disposeAll { segReady with envState := .released }) ∧
    Accepted .disposeAll (running .disposeAll released) ∧
    ((running .disposeAll segReady).ledState ≠ .released ∧ 0 ≤ 815 ∧ 815 ≤ 815) := by
  refine ⟨?_, ?_, ?_, ?_, ?_, by decide⟩ <;> exact accepted_running _ _ rfl (by decide)

theorem witness_PseudoInstructionsExpand : (0 < 256 ∧ 255 < 256) ∧ 256 ≤ 256 ∧
    ([0x48#8, 0x49#8] : List Byte).length < 256 ∧ (0 < 4 ∧ 3 < 4) := by decide

end Sys2Proof.Tests
end

section
/-!
PROOF. Which tables of parameters are refused, and what an accepted one keeps (00_scope.md R8, 20_memory.md R87).
-/
namespace Sys2Proof.Config

/-- The distance of the addresses fits `Params.segGap` exactly when the bus map of 20_memory.md R87 is kept. -/
theorem gapOf_lt_iff (r : RawParams) : gapOf r < 127 ↔ r.envAddr ≠ r.segAddr := by
  unfold gapOf
  bv_omega

/-- `segAddr` undoes `gapOf`. -/
theorem envAddr_add_gapOf (r : RawParams) : r.envAddr + 1#7 + BitVec.ofNat 7 (gapOf r) = r.segAddr := by
  unfold gapOf
  rw [BitVec.ofNat_toNat, BitVec.setWidth_eq]
  bv_omega

theorem build_eq_none_iff (r : RawParams) :
    build r = none ↔ r.envAddr = r.segAddr ∨ r.charset.lookup 0x20#8 = none := by
  unfold build
  split
  case h_1 hspace => exact ⟨fun _ => .inr hspace, fun _ => rfl⟩
  case h_2 space hspace =>
    rw [hspace]
    split
    case isTrue hgap =>
      have hne : r.envAddr ≠ r.segAddr := (gapOf_lt_iff r).mp hgap
      exact ⟨nofun, fun h => h.elim (fun heq => absurd heq hne) nofun⟩
    case isFalse hgap =>
      have heq : r.envAddr = r.segAddr := Decidable.of_not_not fun hne => hgap ((gapOf_lt_iff r).mpr hne)
      exact ⟨fun _ => .inl heq, fun _ => rfl⟩

/-- The components of an accepted table that the addresses and the charset are read from. -/
theorem components_of_build {r : RawParams} {p : Params} (h : build r = some p) :
    p.envAddr = r.envAddr ∧ p.segGap.val = gapOf r ∧ r.charset.lookup 0x20#8 = some p.spaceMask ∧
      p.charset = r.charset := by
  unfold build at h
  split at h
  case h_1 => cases h
  case h_2 space hspace =>
    split at h
    · cases h
      exact ⟨rfl, rfl, hspace, rfl⟩
    · cases h

theorem segAddr_of_build {r : RawParams} {p : Params} (h : build r = some p) : segAddr p = r.segAddr := by
  obtain ⟨henv, hgap, -, -⟩ := components_of_build h
  rw [segAddr, henv, hgap, envAddr_add_gapOf]

theorem charset_of_build {r : RawParams} {p : Params} (h : build r = some p) (c : Byte) :
    charset p c = r.charset.lookup c := by
  obtain ⟨-, -, hspace, hcharset⟩ := components_of_build h
  unfold charset
  split
  · next hc => rw [hc, hspace]
  · rw [hcharset]

/-- Settles O22, from the refusal lemma and what each component of an accepted table is. -/
theorem badParametersRefused : Obligations.BadParametersRefused := by
  intro r
  refine ⟨build_eq_none_iff r, fun p h => ?_⟩
  obtain ⟨henv, -, -, -⟩ := components_of_build h
  exact ⟨henv, segAddr_of_build h, charset_of_build h⟩

end Sys2Proof.Config
end

section
/-!
PROOF. What one step of a running command does to the committed state and to the readiness of an engine, and what a step
of the machine can be, each said once (10_state.md R30, R39; 20_memory.md R68).
-/
namespace Sys2Proof.Machine

/-! ### One step of a command: an event or a completion -/

/-- `t` is `u` after one external event: only the two ports, the draws and the command's own progress differ. -/
inductive Emitted (u : State) : State → Prop where
  | mk (pins : Pins) (pinTrace : List PinEvent) (busTrace : List BusEvent) (rx : List Answer) (ackTape : List Bool)
      (byteTape : List Byte) (ackDraws byteDraws : Nat) :
      Emitted u { u with
        pins := pins, pinTrace := pinTrace, busTrace := busTrace
        latch := { u.latch with pos := u.latch.pos + 1, rx := rx }
        ackTape := ackTape, byteTape := byteTape, ackDraws := ackDraws, byteDraws := byteDraws }

/-- A step that does not complete the program emits an event. -/
theorem Effect.emitted_or_done {D : Code → (State → State) → Prop} {P : PinEvent → Prop} {B : BusAddr → Prop}
    {u t : State} (h : Effect D P B u t) : Emitted u t ∨ ∃ c f, D c f ∧ t = finish c (f u) := by
  cases h with
  | done c f h => exact .inr ⟨c, f, h, rfl⟩
  | pin | probe | read | write => exact .inl (.mk _ _ _ _ _ _ _ _)

/-- What a step of command `i` is: an event or a completion, after the engine of an init command has entered
INITIALIZING. -/
theorem exec_emitted_or_done {i : Instr} {s t : State} (h : exec i s = .next t) :
    ∃ e g, (e = s.envState ∨ (i = .envInit ∧ e = .initializing ∧ (s.envState = .uninitialized ∨ s.envState = .initializing))) ∧
      (g = s.segState ∨ (i = .segInit ∧ g = .initializing ∧ (s.segState = .uninitialized ∨ s.segState = .initializing))) ∧
      (Emitted { s with envState := e, segState := g } t ∨
        ∃ c f, LeafOk i s c f ∧ t = finish c (f { s with envState := e, segState := g })) := by
  obtain ⟨u, t', ht, hu, he⟩ := exec_cases i s
  cases ht.symm.trans h
  obtain ⟨e, g, rfl, hE, hG⟩ := entered_keeps hu
  exact ⟨e, g, hE, hG, he.emitted_or_done⟩

/-- A step after which the command still runs is an event. -/
theorem exec_emitted {i : Instr} {s t : State} (h : exec i s = .next t) (hb : t.latch.busy = true) :
    ∃ e g, (e = s.envState ∨ (i = .envInit ∧ e = .initializing)) ∧ (g = s.segState ∨ (i = .segInit ∧ g = .initializing)) ∧
      Emitted { s with envState := e, segState := g } t := by
  obtain ⟨e, g, hE, hG, hem | ⟨c, f, -, rfl⟩⟩ := exec_emitted_or_done h
  · exact ⟨e, g, hE.imp_right fun h => ⟨h.1, h.2.1⟩, hG.imp_right fun h => ⟨h.1, h.2.1⟩, hem⟩
  · cases hb

/-! ### Readiness -/

/-- What a step of a command makes of an engine's readiness, and whether the command still runs then; `own` says that
it is the engine's init command. -/
inductive EngineStep (own : Prop) (r : Readiness) : Readiness → Bool → Prop where
  | keep (b : Bool) (h : own → r ≠ .uninitialized ∧ r ≠ .initializing) : EngineStep own r r b
  | enter (h : own) (hr : r = .uninitialized ∨ r = .initializing) : EngineStep own r .initializing true
  | complete (r' : Readiness) (h : own) (hr : r = .uninitialized ∨ r = .initializing) (hr' : r' = .ready ∨ r' = .failed) :
      EngineStep own r r' false
  | release (b : Bool) (h : ¬ own) : EngineStep own r .released b

/-- An init command found UNINITIALIZED does what it does in INITIALIZING. -/
theorem EngineStep.of_initializing {own : Prop} {r r' : Readiness} {b : Bool} (h : EngineStep own .initializing r' b)
    (hown : own) (hr : r = .uninitialized) : EngineStep own r r' b := by
  cases h with
  | keep b h => exact absurd rfl (h hown).2
  | enter => exact .enter hown (.inl hr)
  | complete r' _ _ hr' => exact .complete r' hown (.inl hr) hr'
  | release b h => exact absurd hown h

/-- An event leaves the readiness, which is INITIALIZING while the init command runs. -/
theorem EngineStep.of_event {own : Prop} {r : Readiness} (h : own → r ≠ .uninitialized) : EngineStep own r r true := by
  by_cases hi : own ∧ r = .initializing
  · obtain ⟨hown, rfl⟩ := hi
    exact .enter hown (.inr rfl)
  · exact .keep true fun hown => ⟨h hown, fun hr => hi ⟨hown, hr⟩⟩

/-- `env.init` enters INITIALIZING before all else, so it does the same when ENV is INITIALIZING already. -/
theorem exec_envInit_of_uninitialized {s : State} (h : s.envState = .uninitialized) :
    exec .envInit s = exec .envInit (setReadiness .env .initializing s) := by
  simp only [exec, execEnvInit, stepProgram, envInitProgram, h, setReadiness_env_envState, advance_initializing]
  rfl

/-- `seg.init` enters INITIALIZING before all else, so it does the same when SEG is INITIALIZING already. -/
theorem exec_segInit_of_uninitialized {s : State} (h : s.segState = .uninitialized) :
    exec .segInit s = exec .segInit (setReadiness .seg .initializing s) := by
  simp only [exec, execSegInit, stepProgram, segInitProgram, h, setReadiness_seg_segState, advance_initializing]
  rfl

/-- A completion of a command whose engine is not UNINITIALIZED. -/
theorem EngineStep.of_completion {own : Prop} {r r' : Readiness}
    (h : r' = r ∨ (¬ own ∧ r' = .released) ∨
      (own ∧ (r = .uninitialized ∨ r = .initializing) ∧ (r' = .ready ∨ r' = .failed)))
    (hfin : own → r = .uninitialized ∨ r = .initializing → r' ≠ .initializing) (hne : own → r ≠ .uninitialized) :
    EngineStep own r r' false := by
  rcases h with rfl | ⟨hown, rfl⟩ | ⟨hown, hr, hr'⟩
  · exact .keep false fun hown => ⟨hne hown, fun hr => hfin hown (.inr hr) hr⟩
  · exact .release false hown
  · exact .complete _ hown hr hr'

/-- Entering INITIALIZING changes nothing when the engine is not UNINITIALIZED. -/
theorem eq_of_entered {own : Prop} {r e : Readiness} (hne : own → r ≠ .uninitialized)
    (h : e = r ∨ (own ∧ e = .initializing ∧ (r = .uninitialized ∨ r = .initializing))) : e = r := by
  rcases h with he | ⟨hown, he, hr | hr⟩
  · exact he
  · exact absurd hr (hne hown)
  · exact he.trans hr.symm

theorem engineStep_env_of_ne {i : Instr} {s t : State} (h : exec i s = .next t) (hb : s.latch.busy = true)
    (hne : i = .envInit → s.envState ≠ .uninitialized) :
    EngineStep (i = .envInit) s.envState t.envState t.latch.busy := by
  obtain ⟨e, g, hE, -, hem⟩ := exec_emitted_or_done h
  obtain rfl := eq_of_entered hne hE
  rcases hem with ⟨_, _⟩ | ⟨c, f, ⟨-, hc⟩, rfl⟩
  · exact hb ▸ EngineStep.of_event hne
  · refine EngineStep.of_completion (hc.envState.imp (fun hk => (hk _).1) (.imp ?_ ?_)) (fun hi hr => hc.envInit hi hr _) hne
    · exact fun ⟨hi, hr⟩ => ⟨hi, (hr _).1⟩
    · exact fun ⟨hi, hs, hr⟩ => ⟨hi, hs, hr.imp (fun hr => (hr _).1) (fun hr => (hr _).1)⟩

theorem engineStep_seg_of_ne {i : Instr} {s t : State} (h : exec i s = .next t) (hb : s.latch.busy = true)
    (hne : i = .segInit → s.segState ≠ .uninitialized) :
    EngineStep (i = .segInit) s.segState t.segState t.latch.busy := by
  obtain ⟨e, g, -, hG, hem⟩ := exec_emitted_or_done h
  obtain rfl := eq_of_entered hne hG
  rcases hem with ⟨_, _⟩ | ⟨c, f, ⟨-, hc⟩, rfl⟩
  · exact hb ▸ EngineStep.of_event hne
  · refine EngineStep.of_completion (hc.segState.imp (fun hk => hk _) (.imp ?_ ?_)) (fun hi hr => hc.segInit hi hr _) hne
    · exact fun ⟨hi, hr⟩ => ⟨hi, hr _⟩
    · exact fun ⟨hi, hs, hr⟩ => ⟨hi, hs, hr.imp (fun hr => hr _) (fun hr => hr _)⟩

theorem engineStep_env {i : Instr} {s t : State} (h : exec i s = .next t) (hb : s.latch.busy = true) :
    EngineStep (i = .envInit) s.envState t.envState t.latch.busy := by
  by_cases hu : i = .envInit ∧ s.envState = .uninitialized
  · obtain ⟨rfl, hu⟩ := hu
    rw [exec_envInit_of_uninitialized hu] at h
    have hini := engineStep_env_of_ne h hb fun _ hr => by cases hr
    exact hini.of_initializing rfl hu
  · exact engineStep_env_of_ne h hb fun hi hr => hu ⟨hi, hr⟩

theorem engineStep_seg {i : Instr} {s t : State} (h : exec i s = .next t) (hb : s.latch.busy = true) :
    EngineStep (i = .segInit) s.segState t.segState t.latch.busy := by
  by_cases hu : i = .segInit ∧ s.segState = .uninitialized
  · obtain ⟨rfl, hu⟩ := hu
    rw [exec_segInit_of_uninitialized hu] at h
    have hini := engineStep_seg_of_ne h hb fun _ hr => by cases hr
    exact hini.of_initializing rfl hu
  · exact engineStep_seg_of_ne h hb fun hi hr => hu ⟨hi, hr⟩

/-- The LED engine leaves its readiness only for RELEASED. -/
theorem exec_ledState {i : Instr} {s t : State} (h : exec i s = .next t) : t.ledState = s.ledState ∨ t.ledState = .released := by
  obtain ⟨e, g, -, -, ⟨_, _⟩ | ⟨c, f, ⟨-, hc⟩, rfl⟩⟩ := exec_emitted_or_done h
  · exact .inl rfl
  · exact hc.ledState.imp (fun h => h _) (fun h => h _)

/-- `cal_valid` keeps holding exactly in ENV READY. -/
theorem exec_calValid_iff {i : Instr} {s t : State} (h : exec i s = .next t) (hs : s.calValid = true ↔ s.envState = .ready) :
    t.calValid = true ↔ t.envState = .ready := by
  obtain ⟨e, g, hE, -, hem⟩ := exec_emitted_or_done h
  have he : s.calValid = true ↔ e = .ready := by
    rcases hE with rfl | ⟨-, rfl, hr⟩
    · exact hs
    · rcases hr with hr | hr <;> simp [hs, hr]
  rcases hem with ⟨_, _⟩ | ⟨c, f, ⟨-, hc⟩, rfl⟩
  · exact he
  · simp only [finish_calValid, finish_envState]
    rcases hc.envState with hk | ⟨-, hr⟩ | ⟨-, hu, hr | hr⟩
    · rw [(hk _).1, (hk _).2]
      exact he
    · simp [hr]
    · simp [hr]
    · rcases hu with hu | hu <;> simp [hr, hs, hu]

/-- The command word stays in the latch until the next acceptance. -/
theorem exec_latch_op {i : Instr} {s t : State} (h : exec i s = .next t) : t.latch.op = s.latch.op := by
  obtain ⟨e, g, -, -, ⟨_, _⟩ | ⟨c, f, ⟨-, hc⟩, rfl⟩⟩ := exec_emitted_or_done h
  · rfl
  · rw [finish_latch, hc.latch]

/-- The script is not the sequencer's to change. -/
theorem exec_script {i : Instr} {s t : State} (h : exec i s = .next t) : t.script = s.script := by
  obtain ⟨e, g, -, -, ⟨_, _⟩ | ⟨c, f, ⟨-, hc⟩, rfl⟩⟩ := exec_emitted_or_done h
  · rfl
  · exact hc.script _

/-- Two commands run in one state only if they are the same. -/
theorem Running.unique {i j : Instr} {s : State} (h : Running i s) (h' : Running j s) : i = j :=
  Option.some.inj (h.2.symm.trans h'.2)

theorem not_running_of_idle {s : State} (h : s.latch.busy = false) (i : Instr) : ¬ Running i s :=
  fun hr => Bool.false_ne_true (h.symm.trans hr.1)

theorem not_running_of_illegal {s : State} (h : decode s.latch.op = none) (i : Instr) : ¬ Running i s :=
  fun hr => by cases h.symm.trans hr.2

/-! ### What a step of the machine is -/

/-- The cases of a step of the machine from `s`. -/
inductive StepCase (s : State) : State → Prop where
  /-- No sequencer step: only what the host reaches changes, and a command is accepted only while none runs. -/
  | host (a0 a1 : Word) (st : BitVec 7) (wt : Bool) (la : Latch) (rs : List (Byte × Word)) (r : List Turn)
      (h : la = s.latch ∨ (s.latch.busy = false ∧ la.pos = 0)) :
      StepCase s { s with arg0 := a0, arg1 := a1, sticky := st, ctrlWt := wt, latch := la, hostReads := rs, script := r }
  /-- The completion of a word that is no command. -/
  | illegal (st : BitVec 7) (r : List Turn) (h : decode s.latch.op = none) :
      StepCase s (finish .illegalCommand { s with sticky := st, script := r })
  /-- One step of the running command. -/
  | command (i : Instr) (st : BitVec 7) (r : List Turn) (t : State) (hi : Running i s)
      (h : exec i { s with sticky := st, script := r } = .next t) : StepCase s t
  /-- A reset. -/
  | reset (r : List Turn) (h : s.script.head? = some .reset) : StepCase s (resetInput { s with script := r })

theorem stepCase_of_sequencerTurn {s t : State} {st : BitVec 7} {r : List Turn}
    (h : sequencerTurn { s with sticky := st, script := r } = .next t) : StepCase s t := by
  rcases sequencerTurn_cases h with ⟨-, rfl⟩ | ⟨-, hd, rfl⟩ | ⟨i, hi, h⟩
  · exact .host _ _ _ _ _ _ _ (.inl rfl)
  · exact .illegal st r hd
  · exact .command i st r t hi h

theorem stepCase_of_hostAccess {a : HostAccess} {s t : State} {r : List Turn}
    (h : hostAccess a { s with script := r } = .next t) : StepCase s t := by
  rcases hostAccess_cases h with ⟨off, w, -, rfl⟩ | ⟨off, v, rfl⟩
  · exact .host _ _ _ _ _ _ _ (.inl rfl)
  · obtain ⟨a0, a1, st, wt, la, heq, hla⟩ := hostWrite_cases off v { s with script := r }
    rw [heq]
    exact .host _ _ _ _ _ _ _ hla

theorem step_cases {s t : State} (h : step s = .next t) : StepCase s t := by
  rcases step_turn h with ⟨r, h, -⟩ | ⟨v, r, h, -⟩ | ⟨a, r, h, -⟩ | ⟨r, rfl, hr⟩
  · exact stepCase_of_sequencerTurn h
  · exact stepCase_of_sequencerTurn h
  · exact stepCase_of_hostAccess h
  · exact .reset r hr

end Sys2Proof.Machine
end

section
/-!
PROOF. The invariant of every run, the readiness transitions, and when coefficients change (10_state.md R30, R34, R35, R39).
-/
namespace Sys2Proof.Machine

/-- The invariant speaks of readiness, `cal_valid` and the latch only. -/
theorem Consistent.congr {s t : State} (hc : Consistent s) (hl : t.ledState = s.ledState) (hv : t.calValid = s.calValid)
    (he : t.envState = s.envState) (hg : t.segState = s.segState) (hla : t.latch = s.latch) : Consistent t := by
  unfold Consistent Running at *
  rwa [hl, hv, he, hg, hla]

/-- An engine is INITIALIZING after a step only if its init command still runs. -/
theorem EngineStep.own_of_initializing {own : Prop} {r : Readiness} {b : Bool} (h : EngineStep own r .initializing b)
    (hr : r = .initializing → own) : own ∧ b = true := by
  cases h with
  | keep b h => exact absurd rfl (h (hr rfl)).2
  | enter hown => exact ⟨hown, rfl⟩
  | complete _ _ _ hr' => rcases hr' with hr' | hr' <;> cases hr'

/-- No step of its init command leaves an engine UNINITIALIZED. -/
theorem EngineStep.not_own_of_uninitialized {own : Prop} {r : Readiness} {b : Bool} (h : EngineStep own r .uninitialized b) :
    ¬ own := by
  cases h with
  | keep b h => exact fun hown => (h hown).1 rfl
  | complete _ _ _ hr' => rcases hr' with hr' | hr' <;> cases hr'

/-- Every step of a running command keeps the invariant. -/
theorem exec_consistent {i : Instr} {s t : State} (hc : Consistent s) (hi : Running i s) (h : exec i s = .next t) :
    Consistent t := by
  obtain ⟨hled, hcal, hEnv, hSeg, -, -⟩ := hc
  have henv := engineStep_env h hi.1
  have hseg := engineStep_seg h hi.1
  have hop : ∀ j, Running j t → i = j := fun j hj => hi.unique ⟨hi.1, exec_latch_op h ▸ hj.2⟩
  refine ⟨?_, exec_calValid_iff h hcal, fun hr => ?_, fun hr => ?_, fun hj hr => ?_, fun hj hr => ?_⟩
  · rcases exec_ledState h with hl | hl
    · rwa [hl]
    · exact .inr hl
  · rw [hr] at henv
    obtain ⟨rfl, hb⟩ := henv.own_of_initializing fun hs => hi.unique (hEnv hs)
    exact ⟨hb, exec_latch_op h ▸ hi.2⟩
  · rw [hr] at hseg
    obtain ⟨rfl, hb⟩ := hseg.own_of_initializing fun hs => hi.unique (hSeg hs)
    exact ⟨hb, exec_latch_op h ▸ hi.2⟩
  · rw [hr] at henv
    exact absurd (hop _ hj) henv.not_own_of_uninitialized
  · rw [hr] at hseg
    exact absurd (hop _ hj) hseg.not_own_of_uninitialized

/-- A step that changes no readiness keeps the invariant when no command ran before it and none that runs after it has
emitted an event. -/
theorem Consistent.of_no_init {s t : State} (hc : Consistent s) (hl : t.ledState = s.ledState) (hv : t.calValid = s.calValid)
    (he : t.envState = s.envState) (hg : t.segState = s.segState) (hno : ∀ i, ¬ Running i s)
    (hpos : t.latch.busy = true → t.latch.pos = 0) : Consistent t := by
  obtain ⟨hled, hcal, hEnv, hSeg, -, -⟩ := hc
  rw [← hl] at hled
  rw [← hv, ← he] at hcal
  refine ⟨hled, hcal, fun hr => absurd (hEnv (he ▸ hr)) (hno _), fun hr => absurd (hSeg (hg ▸ hr)) (hno _), ?_, ?_⟩
  · exact fun hj _ => hpos hj.1
  · exact fun hj _ => hpos hj.1

theorem resetInput_consistent (s : State) : Consistent (resetInput s) := by
  simp [Consistent, Running, State.resetWith, Latch.atReset]

/-- Settles O23, by the cases of a step. -/
theorem stepKeepsTheInvariant : Obligations.StepKeepsTheInvariant := by
  intro s t hc h
  cases step_cases h with
  | host a0 a1 st wt la rs r hla =>
    rcases hla with rfl | ⟨hb, hpos⟩
    · exact hc.congr rfl rfl rfl rfl rfl
    · exact hc.of_no_init rfl rfl rfl rfl (not_running_of_idle hb) fun _ => hpos
  | illegal st r hd =>
    exact hc.of_no_init rfl rfl rfl rfl (not_running_of_illegal hd) fun hb => Bool.noConfusion hb
  | command i st r _ hi h => exact exec_consistent (s := { s with sticky := st, script := r }) hc hi h
  | reset r hr => exact resetInput_consistent _

/-! ### Readiness transitions -/

/-- From UNINITIALIZED the first step of `env.init` is its probe. -/
theorem exec_envInit_first {s : State} (h : s.envState = .uninitialized) (hpos : s.latch.pos = 0) :
    exec .envInit s = .next (emitProbe s.params.envAddr (setReadiness .env .initializing s)) := by
  simp [exec, execEnvInit, stepProgram, envInitProgram, h, hpos]

/-- From UNINITIALIZED the first step of `seg.init` is its probe. -/
theorem exec_segInit_first {s : State} (h : s.segState = .uninitialized) (hpos : s.latch.pos = 0) :
    exec .segInit s = .next (emitProbe (Config.segAddr s.params) (setReadiness .seg .initializing s)) := by
  simp [exec, execSegInit, stepProgram, segInitProgram, h, hpos]

/-- The transition of a step, when an init command does not complete in UNINITIALIZED and an engine is INITIALIZING only
while its init command runs. -/
theorem EngineStep.initTransition {own : Prop} {r r' : Readiness} {b : Bool} (h : EngineStep own r r' b)
    (hfirst : own → r = .uninitialized → b = true) (hini : r = .initializing → own) : InitTransition r r' := by
  cases h with
  | keep => exact .inl rfl
  | enter _ hr => exact hr.elim (fun hr => .inr (.inl ⟨hr, rfl⟩)) (fun hr => .inl hr.symm)
  | complete _ hown hr hr' =>
    rcases hr with hr | hr
    · cases hfirst hown hr
    · exact .inr (.inr (.inl ⟨hr, hr'⟩))
  | release _ hown =>
    cases r with
    | initializing => exact absurd (hini rfl) hown
    | released => exact .inl rfl
    | uninitialized | ready | failed => exact .inr (.inr (.inr ⟨by simp, rfl⟩))

theorem exec_transitions {i : Instr} {s t : State} (hc : Consistent s) (hi : Running i s) (h : exec i s = .next t) :
    (t.ledState = s.ledState ∨ (s.ledState = .ready ∧ t.ledState = .released)) ∧
    InitTransition s.envState t.envState ∧ InitTransition s.segState t.segState := by
  obtain ⟨hled, -, hEnv, hSeg, hEnv0, hSeg0⟩ := hc
  refine ⟨?_, (engineStep_env h hi.1).initTransition ?_ fun hs => hi.unique (hEnv hs),
    (engineStep_seg h hi.1).initTransition ?_ fun hs => hi.unique (hSeg hs)⟩
  · rcases exec_ledState h, hled with ⟨hl | hl, hs | hs⟩
    · exact .inl hl
    · exact .inl hl
    · exact .inr ⟨hs, hl⟩
    · exact .inl (hl.trans hs.symm)
  · rintro rfl hr
    cases (exec_envInit_first hr (hEnv0 hi hr)).symm.trans h
    exact hi.1
  · rintro rfl hr
    cases (exec_segInit_first hr (hSeg0 hi hr)).symm.trans h
    exact hi.1

/-- Settles O25, by the cases of a step. -/
theorem readinessTransitions : Obligations.ReadinessTransitions := by
  intro s t hc h hno
  cases step_cases h with
  | host => exact ⟨.inl rfl, .inl rfl, .inl rfl⟩
  | illegal => exact ⟨.inl rfl, .inl rfl, .inl rfl⟩
  | command i st r _ hi h => exact exec_transitions (s := { s with sticky := st, script := r }) hc hi h
  | reset r hr => exact absurd hr hno

/-! ### Coefficients -/

/-- A step of a command that changes a coefficient is the successful completion of `env.init`. -/
theorem exec_coef {i : Instr} {s t : State} (h : exec i s = .next t) :
    t.coef = s.coef ∨ (i = .envInit ∧ s.envState ≠ .ready ∧ t.envState = .ready) := by
  obtain ⟨e, g, -, -, ⟨_, _⟩ | ⟨c, f, ⟨-, hc⟩, rfl⟩⟩ := exec_emitted_or_done h
  · exact .inl rfl
  · exact hc.coef.imp (fun hk => hk _) fun ⟨hi, hs, hr⟩ => ⟨hi, hs, hr _⟩

theorem hostReg_coef (s : State) (c : Vector (BitVec 16) 12) (off : Byte) : hostReg { s with coef := c } off = hostReg s off :=
  rfl

/-- Settles O27, by the cases of a step. -/
theorem coefficientsImmutableAndHidden : Obligations.CoefficientsImmutableAndHidden := by
  refine ⟨fun s t h hne => ?_, hostReg_coef⟩
  cases step_cases h with
  | host => exact absurd rfl hne
  | illegal => exact absurd rfl hne
  | command i st r _ hi h =>
    rcases exec_coef h with hk | ⟨rfl, hs, hr⟩
    · exact absurd hk hne
    · exact .inr ⟨hi, hs, hr⟩
  | reset r hr => exact .inl hr

end Sys2Proof.Machine
end

section
/-!
PROOF. Until its completion a command commits nothing (10_state.md R39).
-/
namespace Sys2Proof.Machine

/-- No register shows an event. -/
theorem hostReg_of_emitted {u t : State} (h : Emitted u t) (off : Byte) : hostReg t off = hostReg u off := by
  obtain ⟨_, _⟩ := h
  rfl

/-- Only `ENG_STATE` shows readiness. -/
theorem hostReg_readiness (s : State) (e g : Readiness) {off : Byte} (h : off ≠ 0x24#8) :
    hostReg { s with envState := e, segState := g } off = hostReg s off := by
  unfold hostReg
  split
  case h_9 h24 => exact absurd (BitVec.eq_of_toNat_eq h24) h
  all_goals rfl

/-- A run that has not completed the command shows its registers as before it, `ENG_STATE` apart. -/
theorem hostReg_run {i : Instr} {s t : State} {n : Nat} {off : Byte} (hs : s.script = []) (hi : Running i s)
    (h : runSteps n s = .next t) (hb : t.latch.busy = true) (hoff : off ≠ 0x24#8) : hostReg t off = hostReg s off := by
  induction n generalizing s with
  | zero =>
    cases h
    rfl
  | succ n ih =>
    obtain ⟨u, hu⟩ := exec_next i s
    have hscript : u.script = [] := (exec_script hu).trans hs
    rw [runSteps_succ n ((step_running hs hi).trans hu)] at h
    cases hub : u.latch.busy with
    | false =>
      cases (runSteps_idle hscript hub n).symm.trans h
      exact absurd (hub.symm.trans hb) Bool.false_ne_true
    | true =>
      obtain ⟨e, g, -, -, hem⟩ := exec_emitted hu hub
      calc hostReg t off
        _ = hostReg u off := ih hscript ⟨hub, exec_latch_op hu ▸ hi.2⟩ h
        _ = hostReg { s with envState := e, segState := g } off := hostReg_of_emitted hem off
        _ = hostReg s off := hostReg_readiness s e g hoff

/-- Settles O8: a step that does not complete is an event, and an event changes no committed state. -/
theorem commitOnlyAtCompletion : Obligations.CommitOnlyAtCompletion := by
  constructor
  · intro i s t _ h hb
    obtain ⟨e, g, he, hg, ⟨_, _⟩⟩ := exec_emitted h hb
    exact ⟨rfl, rfl, rfl, rfl, rfl, rfl, rfl, rfl, rfl, rfl, he, hg⟩
  · intro i s t n off ⟨hs, hi, _, _⟩ h hb hoff
    exact hostReg_run hs hi h hb hoff

end Sys2Proof.Machine
end

section
/-!
PROOF. The host register block: the fields of the words read and the writes that are ignored (10_state.md R20 to R32).
-/
namespace Sys2Proof.Machine

/-! ### Aligned accesses -/

@[simp] theorem accessDefined_of_aligned {off : Byte} (h : off.toNat % 4 = 0) : accessDefined off 4 = true := by
  simp [accessDefined, h]

theorem hostAccess_read_aligned {off : Byte} (h : off.toNat % 4 = 0) (s : State) :
    hostAccess (.read off 4) s = .next { s with hostReads := s.hostReads ++ [(off, hostReg s off)] } := by
  simp [hostAccess, h]

theorem hostAccess_write_aligned {off : Byte} (h : off.toNat % 4 = 0) (v : Word) (s : State) :
    hostAccess (.write off 4 v) s = .next (hostWrite off v s) := by
  simp [hostAccess, h]

/-- A reserved offset reads 0. -/
theorem hostReg_reserved (s : State) {off : Byte} (h : off ∉ [0x00#8, 0x04#8, 0x08#8, 0x0C#8, 0x10#8, 0x14#8, 0x18#8, 0x1C#8,
    0x20#8, 0x24#8, 0x28#8, 0x2C#8, 0x40#8, 0x44#8, 0x48#8, 0x4C#8, 0x50#8, 0x54#8, 0x58#8]) : hostReg s off = 0#32 := by
  unfold hostReg
  split
  case h_19 => rfl
  all_goals
    rename_i hoff
    exact absurd (by simp [← BitVec.toNat_inj, hoff]) h

/-- A write is ignored unless it is to `CMD`, `ARG0`, `ARG1`, `STATUS` or `CTRL`. -/
theorem hostWrite_ignored {off : Byte} (h : off ∉ [0x00#8, 0x04#8, 0x08#8, 0x0C#8, 0x1C#8]) (v : Word) (s : State) :
    hostWrite off v s = s := by
  unfold hostWrite
  split
  case h_6 => rfl
  all_goals
    rename_i hoff
    exact absurd (by simp [← BitVec.toNat_inj, hoff]) h

theorem hostAccess_write_ignored {off : Byte} (ha : off.toNat % 4 = 0) (h : off ∉ [0x00#8, 0x04#8, 0x08#8, 0x0C#8, 0x1C#8])
    (v : Word) (s : State) : hostAccess (.write off 4 v) s = .next s := by
  rw [hostAccess_write_aligned ha, hostWrite_ignored h]

/-- Settles O18. -/
theorem reservedAndReadOnlyOffsets : Obligations.ReservedAndReadOnlyOffsets := by
  intro s off v ha
  refine ⟨fun h => ?_, fun h => hostAccess_write_ignored ha h v s⟩
  rw [hostAccess_read_aligned ha, hostReg_reserved s h]

/-- Settles O15. -/
theorem infoIsConstant : Obligations.InfoIsConstant :=
  fun s v => ⟨rfl, hostAccess_write_ignored (by decide) (by decide) v s⟩

/-! ### Fields of appended words -/

/-- A field above the low part of an appended word. -/
theorem extract_above {v w k n : Nat} {hi : BitVec v} {lo : BitVec w} {x : BitVec n} (h : hi.extractLsb' (k - w) n = x)
    (hk : w ≤ k) : (hi ++ lo).extractLsb' k n = x :=
  (BitVec.extractLsb'_append_eq_of_le hk).trans h

theorem getLsbD_eq_false_of_extract {w k : Nat} {x : BitVec w} (h : x.extractLsb' k 1 = 0#1) : x.getLsbD k = false := by
  simpa using congrArg (·.getLsbD 0) h

theorem ledWord_fields (e : LedEntry) : (ledWord e).extractLsb' 24 8 = brightnessByte e.level ∧
    (ledWord e).extractLsb' 16 8 = e.r ∧ (ledWord e).extractLsb' 8 8 = e.g ∧ (ledWord e).extractLsb' 0 8 = e.b := by
  unfold ledWord
  refine ⟨?_, ?_, ?_, BitVec.extractLsb'_append_eq_right⟩
  · exact extract_above (extract_above BitVec.extractLsb'_append_eq_left (by decide)) (by decide)
  · exact extract_above (extract_above BitVec.extractLsb'_append_eq_right (by decide)) (by decide)
  · exact extract_above BitVec.extractLsb'_append_eq_right (by decide)

/-- The three fields of `ENG_STATE`. -/
theorem engStateWord_fields (s : State) : (engStateWord s).extractLsb' 0 3 = readinessNumber s.ledState ∧
    (engStateWord s).extractLsb' 4 3 = readinessNumber s.envState ∧
    (engStateWord s).extractLsb' 8 3 = readinessNumber s.segState := by
  unfold engStateWord
  refine ⟨BitVec.extractLsb'_append_eq_right, ?_, ?_⟩
  · exact extract_above (extract_above BitVec.extractLsb'_append_eq_right (by decide)) (by decide)
  · exact extract_above (extract_above (extract_above (extract_above BitVec.extractLsb'_append_eq_right
      (by decide)) (by decide)) (by decide)) (by decide)

/-- The bits of `ENG_STATE` outside its fields. -/
theorem engStateWord_zeros (s : State) : (engStateWord s).extractLsb' 3 1 = 0#1 ∧ (engStateWord s).extractLsb' 7 1 = 0#1 ∧
    (engStateWord s).extractLsb' 11 21 = 0#21 := by
  unfold engStateWord
  refine ⟨?_, ?_, ?_⟩
  · exact extract_above BitVec.extractLsb'_append_eq_right (by decide)
  · exact extract_above (extract_above (extract_above BitVec.extractLsb'_append_eq_right (by decide)) (by decide)) (by decide)
  · exact extract_above (extract_above (extract_above (extract_above BitVec.extractLsb'_append_eq_left
      (by decide)) (by decide)) (by decide)) (by decide)

/-! ### The LED array and the frame -/

theorem hostReg_led (s : State) (i : Fin 7) : hostReg s (BitVec.ofNat 8 (0x40 + 4 * i.val)) = ledWord s.led[i] := by
  match i with
  | 0 | 1 | 2 | 3 | 4 | 5 | 6 => rfl

theorem ledOffset_readOnly (i : Fin 7) : (BitVec.ofNat 8 (0x40 + 4 * i.val)).toNat % 4 = 0 ∧
    BitVec.ofNat 8 (0x40 + 4 * i.val) ∉ [0x00#8, 0x04#8, 0x08#8, 0x0C#8, 0x1C#8] := by
  revert i
  decide

/-- Settles O17, from the fields of the words the registers show. -/
theorem ledAndFrameReadBack : Obligations.LedAndFrameReadBack := by
  constructor
  · intro s i v off
    obtain ⟨haligned, hro⟩ := ledOffset_readOnly i
    obtain ⟨hbright, hr, hg, hb⟩ := ledWord_fields s.led[i]
    rw [hostReg_led]
    exact ⟨hbright, hr, hg, hb, hostAccess_write_ignored haligned hro v s⟩
  · intro s v
    exact ⟨BitVec.extractLsb'_append_eq_right, BitVec.extractLsb'_append_eq_left, BitVec.extractLsb'_append_eq_right,
      BitVec.extractLsb'_append_eq_left, hostAccess_write_ignored (by decide) (by decide) v s,
      hostAccess_write_ignored (by decide) (by decide) v s⟩

/-! ### `ENG_STATE` -/

/-- An init command that has entered INITIALIZING and still runs shows it. -/
theorem EngineStep.initializing_of_busy {own : Prop} {r r' : Readiness} (h : EngineStep own r r' true) (hown : own)
    (hr : r = .uninitialized ∨ r = .initializing) : r' = .initializing := by
  cases h with
  | keep _ h => exact absurd hr (not_or.mpr (h hown))
  | enter => rfl
  | release _ hn => exact absurd hown hn

/-- Settles O16: the fields of the word, and what a step of an init command makes of its engine's readiness. -/
theorem engStateShowsReadiness : Obligations.EngStateShowsReadiness := by
  refine ⟨fun s => ?_, fun s v => hostAccess_write_ignored (by decide) (by decide) v s, rfl, rfl, rfl, rfl, rfl,
    fun s hr hb => ?_, fun s hr hb => ?_⟩
  · obtain ⟨hled, henv, hseg⟩ := engStateWord_fields s
    obtain ⟨h3, h7, h11⟩ := engStateWord_zeros s
    exact ⟨hled, henv, hseg, getLsbD_eq_false_of_extract h3, getLsbD_eq_false_of_extract h7, h11⟩
  · obtain ⟨t, ht⟩ := exec_next .envInit s
    refine ⟨t, ht, fun hbt => ?_⟩
    obtain ⟨-, hfield, -⟩ := engStateWord_fields t
    have hini := (hbt ▸ engineStep_env ht hb).initializing_of_busy rfl hr
    exact hfield.trans (congrArg readinessNumber hini)
  · obtain ⟨t, ht⟩ := exec_next .segInit s
    refine ⟨t, ht, fun hbt => ?_⟩
    obtain ⟨-, -, hfield⟩ := engStateWord_fields t
    have hini := (hbt ▸ engineStep_seg ht hb).initializing_of_busy rfl hr
    exact hfield.trans (congrArg readinessNumber hini)

/-! ### `STATUS` -/

/-- The flag of the code a completion reports is set after it. -/
theorem finish_sets_codeFlag (c : Code) (s : State) :
    (finish c s).sticky &&& codeFlag (finish c s).code = codeFlag (finish c s).code := by
  rw [finish_sticky, finish_code, stickyAfter_clear_none]
  ext k hk
  simp +contextual

/-- A sequencer's turn that ends a command sets the flag of the code it reports. -/
theorem sequencerTurn_sets_codeFlag {s t : State} (h : sequencerTurn s = .next t) (hb : s.latch.busy = true)
    (hbt : t.latch.busy = false) : t.sticky &&& codeFlag t.code = codeFlag t.code := by
  rcases sequencerTurn_cases h with ⟨hidle, -⟩ | ⟨-, -, rfl⟩ | ⟨i, -, h⟩
  · exact absurd (hidle.symm.trans hb) Bool.false_ne_true
  · exact finish_sets_codeFlag _ _
  · obtain ⟨e, g, -, -, ⟨_, _⟩ | ⟨c, f, -, rfl⟩⟩ := exec_emitted_or_done h
    · exact absurd (hbt.symm.trans hb) Bool.false_ne_true
    · exact finish_sets_codeFlag _ _

/-- Settles O13: the write clears the bits given, and the completion's flag is set after the clear. -/
theorem statusWriteOneToClear : Obligations.StatusWriteOneToClear := by
  constructor
  · intro s v
    refine ⟨_, hostAccess_write_aligned (by decide) v s, rfl, fun k hk => ?_⟩
    rw [hostWrite_status, stickyAfter_set_none]
    simp [hk, Nat.add_comm]
  · intro s t v rest hscript hb h hbt
    have hturn : step s = sequencerTurn (hostWrite 0x0C#8 v { s with script := rest }) := by
      simp only [step, nextTurn, hscript]
    exact sequencerTurn_sets_codeFlag (hturn.symm.trans h) hb hbt

/-! ### `CTRL` -/

theorem ctrlWord_eq (s : State) : ctrlWord s = if s.ctrlWt then 1#32 else 0#32 := by
  unfold ctrlWord
  cases s.ctrlWt <;> rfl

theorem hostWrite_cmd_of_idle {s : State} (hb : s.latch.busy = false) (w : Word) : hostWrite 0x00#8 w s = accept w s := by
  simp [hostWrite, issue, hb]

/-- The state with the live operand registers rewritten. -/
def withOperands (a b : Word) (c : Bool) (s : State) : State := { s with arg0 := a, arg1 := b, ctrlWt := c }

/-- No step of a program reads the live operand registers, when no commit of it does. -/
theorem advance_withOperands {D : Code → (State → State) → Prop} {P : PinEvent → Prop} {B : BusAddr → Prop}
    {I : Engine → Prop} {p : Program} (hp : AllOf D P B I p) {a b : Word} {c : Bool}
    (hD : ∀ code f, D code f → ∀ u, f (withOperands a b c u) = withOperands a b c (f u)) (pos : Nat) (rx : List Answer)
    (s : State) : advance p pos rx (withOperands a b c s) = withOperands a b c (advance p pos rx s) := by
  induction p generalizing pos rx s with
  | done code f => exact congrArg (finish code) (hD code f hp s)
  | initializing e k ih =>
    have hset : setReadiness e .initializing (withOperands a b c s) = withOperands a b c (setReadiness e .initializing s) := by
      cases e <;> rfl
    rw [advance_initializing, advance_initializing, hset]
    exact ih hp.2 pos rx _
  | pin e k ih =>
    cases pos with
    | zero => rfl
    | succ pos => exact ih hp.2 pos rx s
  | probe addr k ih =>
    rcases pos with _ | pos
    · rfl
    · rcases rx with _ | ⟨_ | _, rx⟩
      · rfl
      · exact ih _ (hp.2 _) pos rx s
      · rfl
  | read addr r n k ih =>
    rcases pos with _ | pos
    · rfl
    · rcases rx with _ | ⟨_ | bs, rx⟩
      · rfl
      · rfl
      · by_cases hn : bs.length = n
        · simpa only [advance, hn, dite_true] using ih _ (hp.2 _) pos rx s
        · simp only [advance, hn, dite_false]
          rfl
  | write addr bytes k ih =>
    cases pos with
    | zero => rfl
    | succ pos => exact ih hp.2 pos rx s

/-- A running command is unaffected by a rewrite of the live operand registers (70_reset_and_hazards.md R297). -/
theorem exec_withOperands {i : Instr} {s t : State} (h : exec i s = .next t) (a b : Word) (c : Bool) :
    exec i (withOperands a b c s) = .next (withOperands a b c t) := by
  have hprog : programOf i (withOperands a b c s) = programOf i s :=
    programOf_congr (s := s) (t := withOperands a b c s) rfl rfl rfl rfl rfl rfl rfl rfl rfl i
  rw [exec_eq] at h
  cases h
  rw [exec_eq, hprog]
  exact congrArg Host.Outcome.next (advance_withOperands (programOf_allOf i s) (fun _ _ hf u => hf.2.operands u a b c) _ _ s)

/-- A running command leaves the live operand registers. -/
theorem exec_operands {i : Instr} {s t : State} (h : exec i s = .next t) : t.arg0 = s.arg0 ∧ t.arg1 = s.arg1 := by
  obtain ⟨e, g, -, -, ⟨_, _⟩ | ⟨c, f, ⟨-, hc⟩, rfl⟩⟩ := exec_emitted_or_done h
  · exact ⟨rfl, rfl⟩
  · exact ⟨hc.arg0 _, hc.arg1 _⟩

/-- Settles O14. -/
theorem ctrlHoldsWriteThrough : Obligations.CtrlHoldsWriteThrough := by
  refine ⟨fun s v => rfl, ctrlWord_eq, rfl, fun s t w hb h => ?_, fun i s t c h => ?_⟩
  · rw [hostAccess_write_aligned (by decide), hostWrite_cmd_of_idle hb] at h
    cases h
    rfl
  · obtain ⟨h0, h1⟩ := exec_operands h
    calc exec i { s with ctrlWt := c }
      _ = .next (withOperands s.arg0 s.arg1 c t) := exec_withOperands h s.arg0 s.arg1 c
      _ = .next { t with ctrlWt := c } := by rw [← h0, ← h1]; rfl

end Sys2Proof.Machine
end

section
/-!
PROOF. The host's accesses, the sequencer's turn and its one external event (20_memory.md R68 to R71, R82, R85).
-/
namespace Sys2Proof.Machine

/-! ### One external event, or the completion -/

/-- Settles O7: the engine an init command enters touches no port, a commit touches no port, and every event appends to
one trace. -/
theorem oneEventOrCompletion : Obligations.OneEventOrCompletion := by
  intro i s hb
  obtain ⟨u, t, ht, hu, he⟩ := exec_cases i s
  obtain ⟨env, seg, rfl, -, -⟩ := entered_keeps hu
  refine ⟨t, ht, ?_⟩
  cases he with
  | done c f h =>
    obtain ⟨-, hc⟩ := h
    have hpos : (finish c (f { s with envState := env, segState := seg })).latch.pos = s.latch.pos := by
      rw [finish_latch, hc.latch]
    exact .inl ⟨rfl, hpos, hc.pins _, hc.pinTrace _, hc.busTrace _⟩
  | pin e => exact .inr ⟨hb, rfl, .inl ⟨e, rfl, rfl, rfl⟩⟩
  | probe | read | write => exact .inr ⟨hb, rfl, .inr ⟨_, rfl, rfl, rfl⟩⟩

/-! ### The turns of the script -/

/-- The sequencer's turn while a command runs is one step of it, whatever the script. -/
theorem sequencerTurn_running {s : State} {i : Instr} (hr : Running i s) : sequencerTurn s = exec i s := by
  obtain ⟨hb, hd⟩ := hr
  simp [sequencerTurn, hb, hd]

theorem step_sequencer {s : State} {rest : List Turn} (h : s.script = .sequencer :: rest) :
    step s = sequencerTurn { s with script := rest } := by
  simp [step, nextTurn, h]

theorem step_host {s : State} {a : HostAccess} {rest : List Turn} (h : s.script = .host a :: rest) :
    step s = hostAccess a { s with script := rest } := by
  simp [step, nextTurn, h]

theorem step_wait_busy {s : State} {rest : List Turn} (h : s.script = .wait :: rest) (hb : s.latch.busy = true) :
    step s = sequencerTurn s := by
  simp [step, nextTurn, h, hb]

theorem step_wait_idle {s : State} {rest : List Turn} (h : s.script = .wait :: rest) (hb : s.latch.busy = false) :
    step s = hostAccess (.read 0x0C#8 4) { s with script := rest } := by
  simp [step, nextTurn, h, hb]

theorem step_clearDuring {s : State} {v : Word} {rest : List Turn} (h : s.script = .clearDuring v :: rest) :
    step s = sequencerTurn (hostWrite 0x0C#8 v { s with script := rest }) := by
  simp [step, nextTurn, h]

/-! ### The decoded command -/

/-- Every row of the opcode table builds a well-formed command from an 8-bit operand. -/
theorem opcodeTable_wellFormed {idx : Nat} (hidx : idx < 256) (f : Bool) :
    ∀ r ∈ opcodeTable, (r.build idx f).wellFormed = true := by
  simp [opcodeTable, OpRow.fixed, OpRow.single, Instr.wellFormed, Instr.idxOperand, hidx]

/-- A word decodes to a well-formed command: the row found builds it from the 8 bits of `IDX`. -/
theorem wellFormed_of_decode {w : Word} {i : Instr} (h : decode w = some i) : i.wellFormed = true := by
  obtain ⟨r, hr, rfl⟩ := Option.map_eq_some_iff.mp h
  exact opcodeTable_wellFormed (BitVec.isLt _) _ r (List.mem_of_find?_eq_some hr)

/-- A word placed for the next step runs as the command the table's numbering decodes it to. -/
theorem running_withFetchWord {w : Nat} {i : Instr} (h : decodeTableWord 32 w = some i) (s : State) :
    Running i (s.withFetchWord 32 w) :=
  ⟨rfl, h⟩

/-- Settles O6: each turn of the script, with the command the latch holds. -/
theorem stepRunsDecodedCommand : Obligations.StepRunsDecodedCommand := by
  refine ⟨fun s i hs hr => ⟨wellFormed_of_decode hr.2, step_running hs hr⟩, fun s i rest hs hr => ?_,
    fun s hs hb => step_idle hs hb, fun s i rest hs hr => ?_, fun s rest hs hb => ?_, fun s i v rest hs hr => ?_,
    fun s a rest hs => step_host hs, fun s w i hw => step_running rfl (running_withFetchWord hw s)⟩
  · rw [step_sequencer hs]
    exact sequencerTurn_running hr
  · rw [step_wait_busy hs hr.1, sequencerTurn_running hr]
  · rw [step_wait_idle hs hb, hostAccess_read_aligned (by decide)]
    rfl
  · rw [step_clearDuring hs, hostWrite_status, stickyAfter_set_none]
    exact sequencerTurn_running hr

/-! ### Refused accesses -/

theorem accessDefined_eq_false {off : Byte} {width : Nat} (h : width ≠ 4 ∨ off.toNat % 4 ≠ 0) :
    accessDefined off width = false := by
  rcases h with h | h <;> simp [accessDefined, h]

theorem hostAccess_read_refused {off : Byte} {width : Nat} (h : width ≠ 4 ∨ off.toNat % 4 ≠ 0) (s : State) :
    hostAccess (.read off width) s = .refused (.hostAccess off width) := by
  simp [hostAccess, accessDefined_eq_false h]

theorem hostAccess_write_refused {off : Byte} {width : Nat} (h : width ≠ 4 ∨ off.toNat % 4 ≠ 0) (v : Word) (s : State) :
    hostAccess (.write off width v) s = .refused (.hostAccess off width) := by
  simp [hostAccess, accessDefined_eq_false h]

/-- Settles O20: the aligned read, the two refused accesses on the host's turn, and the second host. -/
theorem hostAccessesDefinedAndRefused : Obligations.HostAccessesDefinedAndRefused := by
  refine ⟨fun s off h => hostAccess_read_aligned h s, fun s rest off width v h => ⟨?_, ?_⟩, fun s rest a => rfl⟩
  · exact (step_host rfl).trans (hostAccess_read_refused h _)
  · exact (step_host rfl).trans (hostAccess_write_refused h v _)

/-! ### A write to `CMD` -/

theorem hostWrite_cmd_of_busy {s : State} (hb : s.latch.busy = true) (w : Word) :
    hostWrite 0x00#8 w s = { s with sticky := s.sticky ||| overrunFlag } := by
  simp [hostWrite, issue, hb]

/-- Settles O12: an aligned write, dropped or accepted. -/
theorem commandAcceptedOrDropped : Obligations.CommandAcceptedOrDropped := by
  constructor
  · intro s w hb
    rw [hostAccess_write_aligned (by decide), hostWrite_cmd_of_busy hb]
    rfl
  · intro s w hb
    rw [hostAccess_write_aligned (by decide), hostWrite_cmd_of_idle hb]
    rfl

end Sys2Proof.Machine
end

section
/-!
PROOF. The opcode table: its rows share no word, each row's words are the words of the instructions it builds, and the
words of no row are the four illegal kinds (30_encoding.md R90 to R93, R98).
-/
namespace Sys2Proof

/-! ### A word is its four fields -/

theorem toNat_opField (w : Word) : (opField w).toNat = w.toNat % 256 := by
  simp [opField]

theorem idxField_eq (w : Word) : idxField w = w.toNat / 256 % 256 := by
  simp [idxField, Nat.shiftRight_eq_div_pow]

theorem idxField_lt (w : Word) : idxField w < 256 := BitVec.isLt _

theorem toNat_fField (w : Word) : (fField w).toNat = w.toNat / 65536 % 2 :=
  Nat.toNat_testBit w.toNat 16

theorem toNat_rsvField (w : Word) : (rsvField w).toNat = w.toNat / 131072 := by
  rw [rsvField, BitVec.extractLsb'_toNat, Nat.shiftRight_eq_div_pow]
  omega

/-- The fields cover the word without overlap (30_encoding.md R91). -/
theorem toNat_eq_fields (w : Word) :
    w.toNat = (opField w).toNat + 256 * idxField w + 65536 * (fField w).toNat + 131072 * (rsvField w).toNat := by
  rw [toNat_opField, idxField_eq, toNat_fField, toNat_rsvField]
  omega

theorem word_eq_iff_fields {w v : Word} :
    w = v ↔ opField w = opField v ∧ idxField w = idxField v ∧ fField w = fField v ∧ rsvField w = rsvField v := by
  constructor
  · rintro rfl
    exact ⟨rfl, rfl, rfl, rfl⟩
  · rintro ⟨hop, hidx, hf, hrsv⟩
    apply BitVec.eq_of_toNat_eq
    rw [toNat_eq_fields w, toNat_eq_fields v, hop, hidx, hf, hrsv]

/-- A word whose `RSV` bits are 0 is the command word of its other fields. -/
theorem commandWord_of_rsvField {w : Word} (hrsv : rsvField w = 0#15) :
    commandWord (opField w) (idxField w) (fField w) = w := by
  obtain ⟨hop, hidx, hf, hz⟩ := commandWord_fields (opField w) (idxField w) (fField w) (idxField_lt w)
  exact word_eq_iff_fields.mpr ⟨hop, hidx, hf, hz.trans hrsv.symm⟩

theorem commandWord_eq_ofNat (op : Byte) {idx : Nat} (hidx : idx < 256) (f : Bool) :
    commandWord op idx f = BitVec.ofNat 32 (op.toNat + 256 * idx + 65536 * f.toNat) := by
  obtain ⟨hop, hi, hf, hz⟩ := commandWord_fields op idx f hidx
  calc commandWord op idx f
    _ = BitVec.ofNat 32 (commandWord op idx f).toNat := by rw [BitVec.ofNat_toNat, BitVec.setWidth_eq]
    _ = BitVec.ofNat 32 (op.toNat + 256 * idx + 65536 * f.toNat) := by rw [toNat_eq_fields, hop, hi, hf, hz]; rfl

/-! ### Which words select a row -/

theorem selects_iff {r : OpRow} {w : Word} : r.selects w = true ↔ w &&& r.mask = r.pattern := beq_iff_eq

theorem opField_and (w m : Word) : opField (w &&& m) = opField w &&& opField m := BitVec.extractLsb'_and

theorem idxField_and (w m : Word) : idxField (w &&& m) = idxField w &&& idxField m := by
  rw [idxField, BitVec.extractLsb'_and, BitVec.toNat_and]
  rfl

theorem fField_and (w m : Word) : fField (w &&& m) = (fField w && fField m) := BitVec.getLsbD_and

theorem rsvField_and (w m : Word) : rsvField (w &&& m) = rsvField w &&& rsvField m := BitVec.extractLsb'_and

theorem selects_iff_fields {r : OpRow} {w : Word} : r.selects w = true ↔
    opField w &&& opField r.mask = opField r.pattern ∧ idxField w &&& idxField r.mask = idxField r.pattern ∧
    (fField w && fField r.mask) = fField r.pattern ∧ rsvField w &&& rsvField r.mask = rsvField r.pattern := by
  rw [selects_iff, word_eq_iff_fields, opField_and, idxField_and, fField_and, rsvField_and]

theorem fixed_selects_iff {p w : Word} {i : Instr} : (OpRow.fixed p i).selects w = true ↔ w = p := by
  rw [selects_iff, OpRow.fixed, show 0xFFFFFFFF#32 = BitVec.allOnes 32 from rfl, BitVec.and_allOnes]

theorem fixed_selects_iff_fields {op : Byte} {f : Bool} {w : Word} {i : Instr} :
    (OpRow.fixed (commandWord op 0 f) i).selects w = true ↔
      opField w = op ∧ idxField w = 0 ∧ fField w = f ∧ rsvField w = 0#15 := by
  obtain ⟨hop, hidx, hf, hrsv⟩ := commandWord_fields op 0 f (by decide)
  rw [fixed_selects_iff, word_eq_iff_fields, hop, hidx, hf, hrsv]

theorem single_selects_iff {op : Byte} {w : Word} {i : Nat → Instr} :
    (OpRow.single (commandWord op 0 false) i).selects w = true ↔
      opField w = op ∧ fField w = false ∧ rsvField w = 0#15 := by
  obtain ⟨hop, hidx, hf, hrsv⟩ := commandWord_fields op 0 false (by decide)
  have hmop : opField 0xFFFF00FF#32 = BitVec.allOnes 8 := rfl
  have hmidx : idxField 0xFFFF00FF#32 = 0 := rfl
  have hmf : fField 0xFFFF00FF#32 = true := rfl
  have hmrsv : rsvField 0xFFFF00FF#32 = BitVec.allOnes 15 := rfl
  rw [selects_iff_fields, OpRow.single, hop, hidx, hf, hrsv, hmop, hmidx, hmf, hmrsv]
  simp only [BitVec.and_allOnes, Nat.and_zero, Bool.and_true, true_and]

/-- The row of class S: `IDX` and `F` are free. -/
def segShowRow : OpRow := ⟨0xFFFE00FF#32, 0x00000021#32, fun idx f => .segShow idx (alignOf f)⟩

theorem segShowRow_selects_iff {w : Word} : segShowRow.selects w = true ↔ opField w = 0x21#8 ∧ rsvField w = 0#15 := by
  have hmop : opField segShowRow.mask = BitVec.allOnes 8 := rfl
  have hmidx : idxField segShowRow.mask = 0 := rfl
  have hmf : fField segShowRow.mask = false := rfl
  have hmrsv : rsvField segShowRow.mask = BitVec.allOnes 15 := rfl
  have hidx : idxField segShowRow.pattern = 0 := rfl
  have hf : fField segShowRow.pattern = false := rfl
  rw [selects_iff_fields, hmop, hmidx, hmf, hmrsv, hidx, hf]
  simp only [BitVec.and_allOnes, Nat.and_zero, Bool.and_false, true_and]
  rfl

/-- The rows with their patterns taken apart into fields. -/
theorem opcodeTable_eq : opcodeTable =
    [ .fixed (commandWord 0x00#8 0 false) .nop,
      .single (commandWord 0x01#8 0 false) .ledSet, .fixed (commandWord 0x01#8 0 true) .ledSetAll,
      .single (commandWord 0x02#8 0 false) .ledOn, .fixed (commandWord 0x02#8 0 true) .ledOnAll,
      .single (commandWord 0x03#8 0 false) .ledOff, .fixed (commandWord 0x03#8 0 true) .ledOffAll,
      .fixed (commandWord 0x04#8 0 false) .ledFlush, .fixed (commandWord 0x05#8 0 false) .ledDispose,
      .fixed (commandWord 0x10#8 0 false) .envInit, .fixed (commandWord 0x11#8 0 false) .envReadT,
      .fixed (commandWord 0x12#8 0 false) .envReadP, .fixed (commandWord 0x13#8 0 false) .envDispose,
      .fixed (commandWord 0x20#8 0 false) .segInit, segShowRow, .fixed (commandWord 0x22#8 0 false) .segDispose,
      .fixed (commandWord 0x30#8 0 false) .disposeAll ] := rfl

/-! ### No two rows overlap -/

/-- A word that two rows select shows each row's pattern under the other's mask. -/
theorem not_selects_both {a b : OpRow} (h : a.pattern &&& b.mask ≠ b.pattern &&& a.mask) (w : Word) :
    ¬ (a.selects w = true ∧ b.selects w = true) := by
  rintro ⟨ha, hb⟩
  apply h
  calc a.pattern &&& b.mask
    _ = w &&& a.mask &&& b.mask := by rw [selects_iff.mp ha]
    _ = w &&& b.mask &&& a.mask := by rw [BitVec.and_assoc, BitVec.and_comm a.mask, ← BitVec.and_assoc]
    _ = b.pattern &&& a.mask := by rw [selects_iff.mp hb]

theorem opcodeTable_patterns_differ : opcodeTable.Pairwise fun a b => a.pattern &&& b.mask ≠ b.pattern &&& a.mask := by
  decide

/-- Settles O3: the patterns of any two rows differ in a bit that both masks keep. -/
theorem noTwoRowsOverlap : Obligations.NoTwoRowsOverlap :=
  ⟨rfl, opcodeTable_patterns_differ.imp not_selects_both⟩

/-! ### The round trips -/

theorem find?_eq_some_of_pairwise {α : Type} {p : α → Bool} {l : List α} {a : α}
    (hl : l.Pairwise fun a b => ¬ (p a = true ∧ p b = true)) (ha : a ∈ l) (hp : p a = true) : l.find? p = some a := by
  induction hl with
  | nil => cases ha
  | cons hb _ ih =>
    rcases List.mem_cons.mp ha with rfl | ha
    · exact List.find?_cons_of_pos hp
    · rw [List.find?_cons_of_neg fun h => hb a ha ⟨h, hp⟩, ih ha]

/-- As no two rows overlap, any row the word selects is the row it is decoded by. -/
theorem decode_of_selects {r : OpRow} {w : Word} (hr : r ∈ opcodeTable) (h : r.selects w = true) :
    decode w = some (r.build (idxField w) (fField w)) := by
  have hrows : opcodeTable.Pairwise fun a b => ¬ (a.selects w = true ∧ b.selects w = true) :=
    noTwoRowsOverlap.2.imp fun hab => hab w
  rw [decode, find?_eq_some_of_pairwise hrows hr h, Option.map_some]

theorem decode_commandWord_single {op : Byte} {i : Nat → Instr}
    (hr : OpRow.single (commandWord op 0 false) i ∈ opcodeTable) {n : Nat} (hn : n < 256) :
    decode (commandWord op n false) = some (i n) := by
  obtain ⟨hop, hidx, hf, hrsv⟩ := commandWord_fields op n false hn
  rw [decode_of_selects hr (single_selects_iff.mpr ⟨hop, hf, hrsv⟩), hidx]
  rfl

theorem decode_commandWord_segShow {n : Nat} (hn : n < 256) (f : Bool) :
    decode (commandWord 0x21#8 n f) = some (.segShow n (alignOf f)) := by
  obtain ⟨hop, hidx, hf, hrsv⟩ := commandWord_fields 0x21#8 n f hn
  rw [decode_of_selects (by simp [opcodeTable_eq]) (segShowRow_selects_iff.mpr ⟨hop, hrsv⟩), hidx, hf]
  rfl

theorem alignOf_beq_right (a : Align) : alignOf (a == .right) = a := by cases a <;> rfl

/-- Settles O1: a word without operand is decoded outright, one with an operand by its row. -/
theorem decodeOfEncode : Obligations.DecodeOfEncode := by
  intro i hi
  cases i with
  | ledSet n | ledOn n | ledOff n =>
    exact decode_commandWord_single (by simp [opcodeTable_eq]) (of_decide_eq_true hi)
  | segShow n a =>
    exact (decode_commandWord_segShow (of_decide_eq_true hi) _).trans (by rw [alignOf_beq_right])
  | nop | ledSetAll | ledOnAll | ledOffAll | ledFlush | ledDispose | envInit | envReadT | envReadP | envDispose | segInit
  | segDispose | disposeAll => decide

theorem encode_of_fixed {p : Word} {i : Instr} (h : encode i = p) (w : Word) (hs : (OpRow.fixed p i).selects w = true) :
    encode i = w :=
  h.trans (fixed_selects_iff.mp hs).symm

theorem encode_of_single {op : Byte} {i : Nat → Instr} (h : ∀ n, encode (i n) = commandWord op n false) (w : Word)
    (hs : (OpRow.single (commandWord op 0 false) i).selects w = true) : encode (i (idxField w)) = w := by
  obtain ⟨hop, hf, hrsv⟩ := single_selects_iff.mp hs
  rw [h, ← hop, ← hf, commandWord_of_rsvField hrsv]

theorem encode_of_segShow (w : Word) (hs : segShowRow.selects w = true) :
    encode (.segShow (idxField w) (alignOf (fField w))) = w := by
  obtain ⟨hop, hrsv⟩ := segShowRow_selects_iff.mp hs
  have hf : (alignOf (fField w) == .right) = fField w := by cases fField w <;> rfl
  rw [encode, hf, ← hop, commandWord_of_rsvField hrsv]

/-- Every word that selects a row is the word of the instruction the row builds from it. -/
theorem encode_build : ∀ r ∈ opcodeTable, ∀ w, r.selects w = true → encode (r.build (idxField w) (fField w)) = w := by
  rw [opcodeTable_eq]
  simp only [List.forall_mem_cons]
  exact ⟨encode_of_fixed rfl, encode_of_single fun _ => rfl, encode_of_fixed rfl, encode_of_single fun _ => rfl,
    encode_of_fixed rfl, encode_of_single fun _ => rfl, encode_of_fixed rfl, encode_of_fixed rfl, encode_of_fixed rfl,
    encode_of_fixed rfl, encode_of_fixed rfl, encode_of_fixed rfl, encode_of_fixed rfl, encode_of_fixed rfl,
    encode_of_segShow, encode_of_fixed rfl, encode_of_fixed rfl, nofun⟩

/-- Settles O2, by the row the word is decoded by. -/
theorem encodeOfDecode : Obligations.EncodeOfDecode := by
  intro w i h
  refine ⟨Machine.wellFormed_of_decode h, ?_⟩
  obtain ⟨r, hr, rfl⟩ := Option.map_eq_some_iff.mp h
  exact encode_build r (List.mem_of_find?_eq_some hr) w (List.find?_some (p := (OpRow.selects · w)) hr)

/-- Settles O4, by running the decoder on the nine words. -/
theorem specWordsDecode : Obligations.SpecWordsDecode := by
  unfold Obligations.SpecWordsDecode
  decide

/-! ### Illegal words -/

theorem decode_eq_none_iff {w : Word} : decode w = none ↔ ∀ r ∈ opcodeTable, ¬ r.selects w = true := by
  rw [decode, Option.map_eq_none_iff, List.find?_eq_none]

/-- The class N opcodes (30_encoding.md R92, R93). -/
def classN : List Byte := [0x00#8, 0x04#8, 0x05#8, 0x10#8, 0x11#8, 0x12#8, 0x13#8, 0x20#8, 0x22#8, 0x30#8]

/-- The words no row selects are the kinds of 30_encoding.md R98; class by class, the rows of an opcode leave out these. -/
theorem decode_eq_none_iff_fields (w : Word) : decode w = none ↔
    opField w ∉ assignedOpcodes ∨ rsvField w ≠ 0#15 ∨ (opField w ∈ classN ∧ (idxField w ≠ 0 ∨ fField w = true)) ∨
      (opField w ∈ classL ∧ fField w = true ∧ idxField w ≠ 0) := by
  rw [decode_eq_none_iff, opcodeTable_eq]
  simp only [List.forall_mem_cons, fixed_selects_iff_fields, single_selects_iff, segShowRow_selects_iff]
  simp only [assignedOpcodes, classN, classL, List.mem_cons, List.not_mem_nil, or_false]
  by_cases hrsv : rsvField w = 0#15
  case neg => simp [hrsv]
  by_cases hN : opField w ∈ classN
  case pos =>
    simp only [classN, List.mem_cons, List.not_mem_nil, or_false] at hN
    rcases hN with h | h | h | h | h | h | h | h | h | h <;> simp [h, hrsv, Decidable.imp_iff_not_or]
  by_cases hL : opField w ∈ classL
  case pos =>
    simp only [classL, List.mem_cons, List.not_mem_nil, or_false] at hL
    rcases hL with h | h | h <;> cases fField w <;> simp [h, hrsv]
  by_cases hS : opField w = 0x21#8
  case pos => simp [hS, hrsv]
  simp only [classN, classL, List.mem_cons, List.not_mem_nil, or_false, not_or] at hN hL
  simp [hN, hL, hS]

namespace Machine

theorem step_illegal {s : State} (hs : s.script = []) (hb : s.latch.busy = true) (hd : decode s.latch.op = none) :
    step s = .next (finish .illegalCommand s) := by
  simp [step, nextTurn, hs, sequencerTurn, hb, hd]

/-- Settles O5: the words of no row, and the completion of one of them, which is `finish` alone. -/
theorem illegalWordsCompleteIllegal : Obligations.IllegalWordsCompleteIllegal := by
  refine ⟨decode_eq_none_iff_fields, fun s hs hb hd => ?_⟩
  rw [step_illegal hs hb hd, finish, stickyAfter_clear_none]
  rfl

end Machine
end Sys2Proof
end

section
/-!
PROOF. The host accesses each statement of a host program stands for (30_encoding.md R100, R101).
-/
namespace Sys2Proof.Machine

/-! ### `pack` -/

/-- One code packed below the codes that follow it. -/
def packByte (c : Byte) (w : Word) : Word := (w <<< 8) ||| c.zeroExtend 32

theorem packText_eq (codes : List Byte) : packText codes = (codes.take 4).foldr packByte 0#32 := rfl

theorem packByte_byte_zero (c : Byte) (w : Word) : (packByte c w).extractLsb' 0 8 = c := by
  ext k hk
  have hk32 : k < 32 := by omega
  simp [packByte, hk, hk32]

theorem packByte_byte_succ (c : Byte) (w : Word) {j : Nat} (hj : j + 1 < 4) :
    (packByte c w).extractLsb' (8 * (j + 1)) 8 = w.extractLsb' (8 * j) 8 := by
  ext k hk
  have hbit : 8 * (j + 1) + k = 8 * j + k + 8 := by omega
  have hlt : 8 * j + k + 8 < 32 := by omega
  have hge : ¬ 8 * j + k + 8 < 8 := by omega
  have hc : c.getLsbD (8 * j + k + 8) = false := BitVec.getLsbD_of_ge c _ (by omega)
  simp only [packByte, BitVec.getElem_extractLsb', hbit, BitVec.getLsbD_or, BitVec.getLsbD_shiftLeft,
    BitVec.getLsbD_setWidth, hc, hlt, hge, decide_true, decide_false, Bool.not_false, Bool.true_and, Bool.and_false,
    Bool.or_false, Nat.add_sub_cancel]

theorem foldr_packByte_byte (codes : List Byte) {j : Nat} (hj : j < 4) :
    (codes.foldr packByte 0#32).extractLsb' (8 * j) 8 = codes.getD j 0x00#8 := by
  induction codes generalizing j with
  | nil => simp
  | cons c cs ih =>
    cases j with
    | zero => exact packByte_byte_zero c _
    | succ j =>
      rw [List.foldr_cons, packByte_byte_succ c _ hj, ih (by omega)]
      rfl

/-- Byte j of the packed word is the code at place j, else 0. -/
theorem packText_byte (codes : List Byte) {j : Nat} (hj : j < 4) :
    (packText codes).extractLsb' (8 * j) 8 = codes.getD j 0x00#8 := by
  rw [packText_eq, foldr_packByte_byte _ hj, List.getD_eq_getElem?_getD, List.getElem?_take_of_lt hj,
    ← List.getD_eq_getElem?_getD]

/-! ### Statements -/

theorem commandTurns_of_operand {i : Instr} {n : Nat} (hi : i.idxOperand = some n) :
    commandTurns i = if n < 256 then some [wrTurn 0x00#8 (encode i)] else none := by
  simp [commandTurns, Instr.wellFormed, hi]

theorem encode_operand_words {i : Nat} (hi : i < 256) : encode (.ledSet i) = BitVec.ofNat 32 (0x01 + 256 * i) ∧
    encode (.ledOn i) = BitVec.ofNat 32 (0x02 + 256 * i) ∧ encode (.ledOff i) = BitVec.ofNat 32 (0x03 + 256 * i) ∧
    encode (.segShow i .left) = BitVec.ofNat 32 (0x21 + 256 * i) ∧
    encode (.segShow i .right) = BitVec.ofNat 32 (0x10021 + 256 * i) := by
  refine ⟨commandWord_eq_ofNat _ hi _, commandWord_eq_ofNat _ hi _, commandWord_eq_ofNat _ hi _,
    commandWord_eq_ofNat _ hi _, (commandWord_eq_ofNat _ hi _).trans (congrArg (BitVec.ofNat 32) ?_)⟩
  exact Nat.add_right_comm 0x21 (256 * i) 0x10000

theorem hostAccess_clr (s : State) : hostAccess (.write 0x0C#8 4 0x00007F00#32) s = .next { s with sticky := 0#7 } := by
  rw [hostAccess_write_aligned (by decide), hostWrite_status, stickyAfter_set_none]
  simp

/-- Settles O60: the words by their fields, the statements by what a command statement is, `pack` byte by byte. -/
theorem pseudoInstructionsExpand : Obligations.PseudoInstructionsExpand := by
  refine ⟨fun i hi => encode_operand_words hi, fun i => rfl, fun off v => ⟨rfl, rfl⟩, rfl, fun i c q hi => ?_,
    fun i c q hi => ?_, fun c q => rfl, fun codes a hlen => ?_, fun codes j hj => packText_byte codes hj,
    rfl, rfl, rfl, hostAccess_clr⟩
  · obtain ⟨hset, -⟩ := encode_operand_words hi
    rw [expand, commandTurns_of_operand rfl, if_pos hi, hset]
    rfl
  · rw [expand, commandTurns_of_operand rfl, if_neg (by omega)]
    rfl
  · rw [expand, commandTurns_of_operand rfl, if_pos hlen]
    rfl

end Sys2Proof.Machine
end

section
/-!
PROOF. The brightness level of a signed Q16.16 operand (40_led_strip.md R120).
-/
namespace Sys2Proof.Machine

/-- The level of any operand: the clamp keeps the quotient within 5 bits, so the narrowing loses nothing. -/
theorem quant_toNat (a1 : Word) : ((quant a1).toNat : Int) = 31 * clamp a1.toInt 0 65536 / 65536 := by
  have hclamp : 0 ≤ clamp a1.toInt 0 65536 ∧ clamp a1.toInt 0 65536 ≤ 65536 := by
    unfold clamp
    omega
  rw [quant, asr, Int.fdiv_eq_ediv_of_nonneg _ (by decide), BitVec.toNat_ofInt]
  omega

theorem quant_eq_of_toNat {a1 : Word} {level : BitVec 5} (h : 31 * clamp a1.toInt 0 65536 / 65536 = level.toNat) :
    quant a1 = level := by
  apply BitVec.eq_of_toNat_eq
  exact Int.ofNat_inj.mp ((quant_toNat a1).trans h)

theorem brightnessByte_toNat : ∀ level : BitVec 5, (brightnessByte level).toNat = 0xE0 + level.toNat := by
  decide

/-- Settles O28: every clause on a range of operands is arithmetic on the clamped quotient. -/
theorem brightnessQuantised : Obligations.BrightnessQuantised := by
  refine ⟨fun a1 h0 h1 => ?_, fun a1 h => quant_eq_of_toNat ?_, fun a1 h => quant_eq_of_toNat ?_, by decide, by decide,
    by decide, by decide, fun a1 h0 h1 => quant_eq_of_toNat ?_, brightnessByte_toNat⟩
  · rw [quant_toNat, clamp]
    omega
  all_goals
    simp only [clamp, BitVec.toNat_ofNat]
    omega

end Sys2Proof.Machine
end

section
/-!
PROOF. The event at each index of a flush (40_led_strip.md R127 to R130).
-/
namespace Sys2Proof.Machine

/-! ### Lists made of blocks of one length -/

section Blocks
variable {α β : Type} {f : α → List β} {n : Nat} (hf : ∀ a, (f a).length = n)
include hf

theorem length_flatMap_blocks (l : List α) : (l.flatMap f).length = n * l.length := by
  induction l with
  | nil => rfl
  | cons x xs ih => rw [List.flatMap_cons, List.length_append, hf, ih, List.length_cons, Nat.mul_succ, Nat.add_comm]

/-- Block i of the list is the one made of entry i. -/
theorem take_drop_flatMap_blocks {l : List α} {i : Nat} {a : α} (h : l[i]? = some a) :
    ((l.flatMap f).drop (n * i)).take n = f a := by
  induction l generalizing i with
  | nil => cases h
  | cons x xs ih =>
    rw [List.flatMap_cons]
    cases i with
    | zero =>
      cases h
      exact List.take_left' (hf _)
    | succ i =>
      rw [Nat.mul_succ, Nat.add_comm, ← List.drop_drop, List.drop_left' (hf x)]
      exact ih h

theorem getElem?_flatMap_blocks {l : List α} {i : Nat} {a : α} (h : l[i]? = some a) {k : Nat} (hk : k < n) :
    (l.flatMap f)[n * i + k]? = (f a)[k]? := by
  rw [← take_drop_flatMap_blocks hf h, List.getElem?_take_of_lt hk, List.getElem?_drop]

end Blocks

/-! ### The parts of a flush -/

theorem pulses_eq_flatMap (n : Nat) : pulses n = (List.range n).flatMap fun _ => pulse := by
  rw [pulses, List.flatMap, List.map_const', List.length_range]

theorem pulses_getElem? {n k m : Nat} (hk : k < n) (hm : m < 2) : (pulses n)[2 * k + m]? = pulse[m]? := by
  rw [pulses_eq_flatMap]
  exact getElem?_flatMap_blocks (fun _ => rfl) (List.getElem?_range hk) hm

theorem bitsMsbFirst_getElem? (b : Byte) {k : Nat} (hk : k < 8) : (bitsMsbFirst b)[k]? = some (b.getLsbD (7 - k)) := by
  match k, hk with
  | 0, _ | 1, _ | 2, _ | 3, _ | 4, _ | 5, _ | 6, _ | 7, _ => rfl

theorem sendBit_length (b : Bool) : (sendBit b).length = 3 := rfl

theorem sendByte_getElem? (b : Byte) {k m : Nat} (hk : k < 8) (hm : m < 3) :
    (sendByte b)[3 * k + m]? = (sendBit (b.getLsbD (7 - k)))[m]? :=
  getElem?_flatMap_blocks sendBit_length (bitsMsbFirst_getElem? b hk) hm

theorem sendLed_getElem? {e : LedEntry} {j k m : Nat} {b : Byte} (hj : (ledBytes e)[j]? = some b) (hk : k < 8) (hm : m < 3) :
    (sendLed e)[24 * j + (3 * k + m)]? = (sendBit (b.getLsbD (7 - k)))[m]? := by
  rw [sendLed, getElem?_flatMap_blocks sendByte_length hj (by omega), sendByte_getElem? b hk hm]

theorem startPulses_length : (pulses Config.startPulses).length = 72 := pulses_length 36

theorem endPulses_length : (pulses Config.endPulses).length = 64 := pulses_length 32

/-- The events of a flush before the LED data: CS, DATA low and the start pulses. -/
def flushLead : List PinEvent := csAssert :: ⟨.data, .low⟩ :: pulses Config.startPulses

/-- The events of a flush after the LED data: DATA low, the end pulses and CS. -/
def flushTail : List PinEvent := ⟨.data, .low⟩ :: (pulses Config.endPulses ++ [csRelease])

theorem flushEvents_eq (arr : Vector LedEntry 7) :
    flushEvents arr = flushLead ++ (arr.toList.flatMap sendLed ++ flushTail) := by
  simp [flushEvents, flushLead, flushTail]

theorem flushLead_length : flushLead.length = 74 := by
  simp [flushLead, startPulses_length]

theorem flushTail_length : flushTail.length = 66 := by
  simp [flushTail, endPulses_length]

theorem ledData_length (arr : Vector LedEntry 7) : (arr.toList.flatMap sendLed).length = 672 := by
  rw [length_flatMap_blocks sendLed_length, Vector.length_toList]

theorem flushEvents_length (arr : Vector LedEntry 7) : (flushEvents arr).length = 812 := by
  simp only [flushEvents_eq, List.length_append, flushLead_length, ledData_length, flushTail_length]

theorem flushEvents_getElem?_lead (arr : Vector LedEntry 7) {k : Nat} (hk : k < 74) :
    (flushEvents arr)[k]? = flushLead[k]? := by
  rw [flushEvents_eq, List.getElem?_append_left (flushLead_length ▸ hk)]

theorem flushEvents_getElem?_ledData (arr : Vector LedEntry 7) {k : Nat} (hk : k < 672) :
    (flushEvents arr)[74 + k]? = (arr.toList.flatMap sendLed)[k]? := by
  have hlead := flushLead_length
  rw [flushEvents_eq, List.getElem?_append_right (by omega), hlead, Nat.add_sub_cancel_left,
    List.getElem?_append_left (ledData_length arr ▸ hk)]

theorem flushEvents_getElem?_tail (arr : Vector LedEntry 7) (k : Nat) :
    (flushEvents arr)[746 + k]? = flushTail[k]? := by
  have hfront : (flushLead ++ arr.toList.flatMap sendLed).length = 746 := by
    rw [List.length_append, flushLead_length, ledData_length]
  rw [flushEvents_eq, ← List.append_assoc, List.getElem?_append_right (by omega), hfront, Nat.add_sub_cancel_left]

theorem flushEvents_startPulse (arr : Vector LedEntry 7) {k m x : Nat} (hk : k < 36) (hm : m < 2) (hx : x = 2 + 2 * k + m) :
    (flushEvents arr)[x]? = pulse[m]? := by
  obtain rfl : x = 2 * k + m + 2 := by omega
  rw [flushEvents_getElem?_lead arr (by omega), flushLead, List.getElem?_cons_succ, List.getElem?_cons_succ,
    pulses_getElem? hk hm]

theorem flushEvents_endPulse (arr : Vector LedEntry 7) {k m x : Nat} (hk : k < 32) (hm : m < 2) (hx : x = 747 + 2 * k + m) :
    (flushEvents arr)[x]? = pulse[m]? := by
  obtain rfl : x = 746 + (2 * k + m + 1) := by omega
  have hlen := endPulses_length
  rw [flushEvents_getElem?_tail, flushTail, List.getElem?_cons_succ, List.getElem?_append_left (by omega),
    pulses_getElem? hk hm]

theorem flushEvents_last (arr : Vector LedEntry 7) : (flushEvents arr)[811]? = some csRelease := by
  rw [flushEvents_getElem?_tail arr 65, flushTail, List.getElem?_cons_succ,
    List.getElem?_append_right (Nat.le_of_eq endPulses_length), endPulses_length]
  rfl

/-- Event m of bit k of byte j of LED i. -/
theorem flushEvents_dataBit (arr : Vector LedEntry 7) (i : Fin 7) {j k m x : Nat} {b : Byte}
    (hj : (ledBytes arr[i])[j]? = some b) (hk : k < 8) (hm : m < 3) (hx : x = 74 + 96 * i.val + 24 * j + 3 * k + m) :
    (flushEvents arr)[x]? = (sendBit (b.getLsbD (7 - k)))[m]? := by
  obtain rfl : x = 74 + (96 * i.val + (24 * j + (3 * k + m))) := by omega
  have hj4 : j < 4 := (List.getElem?_eq_some_iff.mp hj).1
  have hi : arr.toList[i.val]? = some arr[i] := by simp
  rw [flushEvents_getElem?_ledData arr (by omega), getElem?_flatMap_blocks sendLed_length hi (by omega),
    sendLed_getElem? hj hk hm]

/-- Settles O39, by the part of the flush each index lies in. -/
theorem flushEventAtEachIndex : Obligations.FlushEventAtEachIndex := by
  intro arr
  refine ⟨flushEvents_length arr, flushEvents_getElem?_lead arr (by decide), flushEvents_getElem?_lead arr (by decide),
    fun k hk => ⟨?_, ?_⟩, fun i j b k hk hj => ⟨?_, ?_, ?_⟩, flushEvents_getElem?_tail arr 0, fun k hk => ⟨?_, ?_⟩,
    flushEvents_last arr⟩
  · exact flushEvents_startPulse arr hk (m := 0) (by decide) (by omega)
  · exact flushEvents_startPulse arr hk (m := 1) (by decide) (by omega)
  · exact flushEvents_dataBit arr i hj hk (m := 0) (by decide) (by omega)
  · exact flushEvents_dataBit arr i hj hk (m := 1) (by decide) (by omega)
  · exact flushEvents_dataBit arr i hj hk (m := 2) (by decide) (by omega)
  · exact flushEvents_endPulse arr hk (m := 0) (by decide) (by omega)
  · exact flushEvents_endPulse arr hk (m := 1) (by decide) (by omega)

end Sys2Proof.Machine
end

section
/-!
PROOF. The clocked bits of a flush, and what the receiver takes from them (20_memory.md R63; 40_led_strip.md R131, R132).
-/
namespace Sys2Proof.Machine

/-! ### Events that clock bits -/

/-- From the levels `p` the events lead to the levels `q`, clock the bits listed, and raise CLK only when it is low. -/
inductive Clocks : Pins → List PinEvent → Pins → List Level → Prop where
  | nil (p : Pins) : Clocks p [] p []
  | rise {p q : Pins} {es : List PinEvent} {bits : List Level} (hclk : p.clk = .low)
      (h : Clocks (drive ⟨.clk, .high⟩ p) es q bits) : Clocks p (⟨.clk, .high⟩ :: es) q (p.data :: bits)
  | other {p q : Pins} {e : PinEvent} {es : List PinEvent} {bits : List Level} (he : e ≠ ⟨.clk, .high⟩)
      (h : Clocks (drive e p) es q bits) : Clocks p (e :: es) q bits

theorem Clocks.append {p q r : Pins} {es fs : List PinEvent} {bits bits' : List Level} (h : Clocks p es q bits)
    (h' : Clocks q fs r bits') : Clocks p (es ++ fs) r (bits ++ bits') := by
  induction h with
  | nil => exact h'
  | rise hclk _ ih => exact .rise hclk (ih h')
  | other he _ ih => exact .other he (ih h')

theorem Clocks.clockedBits_eq {p q : Pins} {es : List PinEvent} {bits : List Level} (h : Clocks p es q bits) :
    clockedBits p es = bits := by
  induction h with
  | nil => rfl
  | rise hclk _ ih => rw [clockedBits, if_pos ⟨rfl, hclk⟩, ih]
  | other he _ ih => rw [clockedBits, if_neg fun hrise => he hrise.1, ih]

theorem Clocks.clk_low_before_rise {p q : Pins} {es before after : List PinEvent} {bits : List Level}
    (h : Clocks p es q bits) (hes : es = before ++ ⟨.clk, .high⟩ :: after) : (pinsAfter before p).clk = .low := by
  induction h generalizing before with
  | nil => simp at hes
  | rise hclk _ ih =>
    cases before with
    | nil => exact hclk
    | cons e before =>
      obtain ⟨rfl, htail⟩ := List.cons.inj hes
      exact ih htail
  | other he _ ih =>
    cases before with
    | nil => exact absurd (List.cons.inj hes).1 he
    | cons e before =>
      obtain ⟨rfl, htail⟩ := List.cons.inj hes
      exact ih htail

/-- A sequence of parts, each of which leads from low CLK to low CLK whatever the other levels. -/
theorem clocks_flatMap {α : Type} {f : α → List PinEvent} {g : α → List Level}
    (hf : ∀ a p, p.clk = .low → ∃ q, q.clk = .low ∧ Clocks p (f a) q (g a)) (l : List α) {p : Pins} (hp : p.clk = .low) :
    ∃ q, q.clk = .low ∧ Clocks p (l.flatMap f) q (l.flatMap g) := by
  induction l generalizing p with
  | nil => exact ⟨p, hp, .nil p⟩
  | cons a l ih =>
    obtain ⟨q, hq, hfirst⟩ := hf a p hp
    obtain ⟨r, hr, hrest⟩ := ih hq
    exact ⟨r, hr, hfirst.append hrest⟩

/-! ### The parts of a flush -/

theorem clocks_pulse {p : Pins} (hp : p.clk = .low) : Clocks p pulse p [p.data] := by
  obtain ⟨data, clk, cs⟩ := p
  cases hp
  exact .rise rfl (.other (by decide) (.nil _))

theorem clocks_pulses {p : Pins} (hp : p.clk = .low) (n : Nat) : Clocks p (pulses n) p (List.replicate n p.data) := by
  induction n with
  | zero => exact .nil p
  | succ n ih => exact (clocks_pulse hp).append ih

theorem clocks_sendBit (b : Bool) {p : Pins} (hp : p.clk = .low) :
    Clocks p (sendBit b) { p with data := levelOf b } [levelOf b] :=
  .other nofun (clocks_pulse (p := { p with data := levelOf b }) hp)

/-- The levels a byte is sent as. -/
def byteLevels (b : Byte) : List Level := (bitsMsbFirst b).map levelOf

/-- The levels an LED's frame is sent as. -/
def ledLevels (e : LedEntry) : List Level := (ledBytes e).flatMap byteLevels

theorem clocks_sendByte (b : Byte) (p : Pins) (hp : p.clk = .low) :
    ∃ q, q.clk = .low ∧ Clocks p (sendByte b) q (byteLevels b) := by
  have hbits : byteLevels b = (bitsMsbFirst b).flatMap fun bit => [levelOf bit] := rfl
  rw [hbits]
  exact clocks_flatMap (fun bit p hp => ⟨{ p with data := levelOf bit }, hp, clocks_sendBit bit hp⟩) _ hp

theorem clocks_sendLed (e : LedEntry) (p : Pins) (hp : p.clk = .low) :
    ∃ q, q.clk = .low ∧ Clocks p (sendLed e) q (ledLevels e) :=
  clocks_flatMap clocks_sendByte _ hp

theorem streamOf_eq (arr : Vector LedEntry 7) : streamOf arr =
    List.replicate 36 .low ++ (arr.toList.flatMap ledLevels ++ List.replicate 32 .low) := by
  simp only [streamOf, List.append_assoc]
  rfl

/-- CS and DATA go low, the start pulses clock 36 zeros. -/
theorem clocks_flushLead {p : Pins} (hp : p.clk = .low) :
    Clocks p flushLead ⟨.low, .low, .low⟩ (List.replicate 36 .low) := by
  obtain ⟨data, clk, cs⟩ := p
  cases hp
  exact .other (by decide) (.other (by decide) (clocks_pulses (p := ⟨.low, .low, .low⟩) rfl 36))

/-- DATA goes low, the end pulses clock 32 zeros, CS is released: the idle levels (40_led_strip.md R133). -/
theorem clocks_flushTail {p : Pins} (hp : p.clk = .low) :
    Clocks p flushTail ⟨.low, .low, .high⟩ (List.replicate 32 .low) := by
  obtain ⟨data, clk, cs⟩ := p
  cases hp
  have hrelease : Clocks ⟨.low, .low, cs⟩ [csRelease] ⟨.low, .low, .high⟩ [] := .other (by decide) (.nil _)
  have hpulses := (clocks_pulses (p := ⟨.low, .low, cs⟩) rfl 32).append hrelease
  rw [List.append_nil] at hpulses
  exact .other (by decide) hpulses

theorem clocks_flush (arr : Vector LedEntry 7) {p : Pins} (hp : p.clk = .low) :
    Clocks p (flushEvents arr) ⟨.low, .low, .high⟩ (streamOf arr) := by
  obtain ⟨q, hq, hdata⟩ := clocks_flatMap clocks_sendLed arr.toList (p := ⟨.low, .low, .low⟩) rfl
  rw [flushEvents_eq, streamOf_eq]
  exact (clocks_flushLead hp).append (hdata.append (clocks_flushTail hq))

/-! ### The stream of bits -/

theorem byteLevels_length (b : Byte) : (byteLevels b).length = 8 := rfl

theorem ledLevels_length (e : LedEntry) : (ledLevels e).length = 32 := rfl

theorem ledStream_length (arr : Vector LedEntry 7) : (arr.toList.flatMap ledLevels).length = 224 := by
  rw [length_flatMap_blocks ledLevels_length, Vector.length_toList]

theorem streamOf_length (arr : Vector LedEntry 7) : (streamOf arr).length = 292 := by
  simp only [streamOf_eq, List.length_append, List.length_replicate, ledStream_length]

theorem streamOf_getElem?_start (arr : Vector LedEntry 7) {k : Nat} (hk : k < 36) : (streamOf arr)[k]? = some .low := by
  rw [streamOf_eq, List.getElem?_append_left (by simpa using hk), List.getElem?_replicate_of_lt hk]

theorem streamOf_getElem?_end (arr : Vector LedEntry 7) {k : Nat} (hk : k < 32) : (streamOf arr)[260 + k]? = some .low := by
  have hfront : (List.replicate 36 Level.low ++ arr.toList.flatMap ledLevels).length = 260 := by
    rw [List.length_append, List.length_replicate, ledStream_length]
  rw [streamOf_eq, ← List.append_assoc, List.getElem?_append_right (by omega), hfront, Nat.add_sub_cancel_left,
    List.getElem?_replicate_of_lt hk]

/-- Group i of the stream is the frame of LED i. -/
theorem streamOf_group (arr : Vector LedEntry 7) (i : Fin 7) :
    ((streamOf arr).drop (36 + 32 * i.val)).take 32 = ledLevels arr[i] := by
  have hi : arr.toList[i.val]? = some arr[i] := by simp
  have hlen := ledStream_length arr
  rw [streamOf_eq, ← List.drop_drop, List.drop_left' List.length_replicate, List.drop_append_of_le_length (by omega),
    List.take_append_of_le_length (by rw [List.length_drop]; omega), take_drop_flatMap_blocks ledLevels_length hi]

theorem streamOf_getElem?_group (arr : Vector LedEntry 7) (i : Fin 7) {m : Nat} (hm : m < 32) :
    (streamOf arr)[36 + 32 * i.val + m]? = (ledLevels arr[i])[m]? := by
  rw [← streamOf_group, List.getElem?_take_of_lt hm, List.getElem?_drop]

theorem byteLevels_getElem? (b : Byte) {k : Nat} (hk : k < 8) : (byteLevels b)[k]? = some (levelOf (b.getLsbD (7 - k))) := by
  rw [byteLevels, List.getElem?_map, bitsMsbFirst_getElem? b hk, Option.map_some]

/-- Bit k of byte j of LED i. -/
theorem streamOf_getElem?_bit (arr : Vector LedEntry 7) (i : Fin 7) {j k : Nat} {b : Byte}
    (hj : (ledBytes arr[i])[j]? = some b) (hk : k < 8) :
    (streamOf arr)[36 + 32 * i.val + (8 * j + k)]? = some (levelOf (b.getLsbD (7 - k))) := by
  have hj4 : j < 4 := (List.getElem?_eq_some_iff.mp hj).1
  rw [streamOf_getElem?_group arr i (by omega), ledLevels, getElem?_flatMap_blocks byteLevels_length hj hk,
    byteLevels_getElem? b hk]

/-- The three fixed bits of the brightness byte come first. -/
theorem brightnessByte_getLsbD (level : BitVec 5) {k : Nat} (hk : k < 3) : (brightnessByte level).getLsbD (7 - k) = true := by
  have hfixed : ∀ k < 3, Config.brightPrefix.getLsbD (7 - k) = true := by decide
  rw [brightnessByte, BitVec.getLsbD_or, hfixed k hk, Bool.true_or]

theorem streamOf_getElem?_fixedBits (arr : Vector LedEntry 7) (i : Fin 7) {k : Nat} (hk : k < 3) :
    (streamOf arr)[36 + 32 * i.val + k]? = some .high := by
  have hbit := streamOf_getElem?_bit arr i (j := 0) rfl (show k < 8 by omega)
  rwa [brightnessByte_getLsbD _ hk, Nat.mul_zero, Nat.zero_add] at hbit

/-- Any 32 consecutive bits of LED data hold the first bit of a group. -/
theorem streamOf_window_high (arr : Vector LedEntry 7) {k : Nat} (hlo : 36 ≤ k) (hhi : k + 32 ≤ 260) :
    ∃ j, j < 32 ∧ (streamOf arr)[k + j]? = some .high := by
  obtain ⟨i, hi, hgroup⟩ : ∃ i < 7, k ≤ 36 + 32 * i ∧ 36 + 32 * i < k + 32 := ⟨(k - 5) / 32, by omega, by omega⟩
  have hbit := streamOf_getElem?_fixedBits arr ⟨i, hi⟩ (show 0 < 3 by decide)
  refine ⟨36 + 32 * i - k, by omega, ?_⟩
  rw [Nat.add_sub_cancel' hgroup.1]
  exact hbit

/-- Settles O40: what the flush clocks, and where each bit of the stream stands. -/
theorem flushBitStream : Obligations.FlushBitStream := by
  refine ⟨rfl, rfl, fun arr p hp => ?_⟩
  have hflush := clocks_flush arr hp
  refine ⟨fun before after h => hflush.clk_low_before_rise h, hflush.clockedBits_eq, streamOf_length arr,
    fun k hk => streamOf_getElem?_start arr hk, fun k hk => streamOf_getElem?_end arr hk, fun i j b k hk hj => ?_,
    fun i k hk => streamOf_getElem?_fixedBits arr i hk, fun k hlo hhi => streamOf_window_high arr hlo hhi⟩
  rw [Nat.add_assoc]
  exact streamOf_getElem?_bit arr i hj hk

/-! ### The receiver -/

theorem byteOfLevels_byteLevels (b : Byte) : byteOfLevels (byteLevels b) = b := by
  revert b
  decide

theorem ledLevels_byte {e : LedEntry} {j : Nat} {b : Byte} (hj : (ledBytes e)[j]? = some b) :
    byteOfLevels (((ledLevels e).drop (8 * j)).take 8) = b := by
  rw [ledLevels, take_drop_flatMap_blocks byteLevels_length hj, byteOfLevels_byteLevels]

theorem receiverGroup_streamOf (arr : Vector LedEntry 7) (i : Fin 7) :
    receiverGroup (streamOf arr) i.val = (brightnessByte arr[i].level, arr[i].b, arr[i].g, arr[i].r) := by
  simp only [receiverGroup]
  rw [streamOf_group]
  have hbright := ledLevels_byte (e := arr[i]) (j := 0) rfl
  have hblue := ledLevels_byte (e := arr[i]) (j := 1) rfl
  have hgreen := ledLevels_byte (e := arr[i]) (j := 2) rfl
  have hred := ledLevels_byte (e := arr[i]) (j := 3) rfl
  exact Prod.ext hbright (Prod.ext hblue (Prod.ext hgreen hred))

/-- Settles O41: the group of LED i in the stream, read byte by byte. -/
theorem receiverTakesTheArray : Obligations.ReceiverTakesTheArray := by
  intro arr p i hp
  rw [(clocks_flush arr hp).clockedBits_eq]
  exact receiverGroup_streamOf arr i

end Sys2Proof.Machine
end

section
/-!
PROOF. The LED commands: what each step of one is, and the run of one that flushes (40_led_strip.md R121 to R126, R133).
-/
namespace Sys2Proof.Machine

/-! ### A command that only completes -/

/-- A step of a program that is a completion committing nothing. -/
theorem exec_of_done_id {i : Instr} {s : State} {c : Code} (h : programOf i s = .done c id) :
    exec i s = .next (completed c s) := by
  rw [exec_eq, h, advance_done, finish_eq_completed, id]

theorem changeLeds_of_not_ready {s : State} (h : s.ledState ≠ .ready) (t : Target) (f : LedEntry → LedEntry) :
    changeLeds t f s = .done .notReady id := if_neg h

theorem programOf_of_not_ready {s : State} (h : s.ledState ≠ .ready) (idx : Nat) :
    ∀ i ∈ [Instr.ledSet idx, .ledSetAll, .ledOn idx, .ledOnAll, .ledOff idx, .ledOffAll, .ledFlush, .ledDispose],
      programOf i s = .done .notReady id := by
  have hchange := changeLeds_of_not_ready h
  simp only [List.forall_mem_cons]
  exact ⟨hchange _ _, hchange .all _, hchange _ _, hchange .all _, hchange _ _, hchange .all _, if_neg h, if_neg h, nofun⟩

/-- Settles O29: every program is the one completion. -/
theorem ledCommandsNotReady : Obligations.LedCommandsNotReady :=
  fun _ idx h i hi => exec_of_done_id (programOf_of_not_ready h idx i hi)

theorem targets_single_of_lt {idx : Nat} (h : idx < 7) : targets (.single idx) = some [idx] :=
  if_neg (Nat.not_le.mpr h)

theorem targets_single_of_ge {idx : Nat} (h : 7 ≤ idx) : targets (.single idx) = none :=
  if_pos h

theorem changeLeds_of_beyond {s : State} (hr : s.ledState = .ready) {idx : Nat} (h : 7 ≤ idx) (f : LedEntry → LedEntry) :
    changeLeds (.single idx) f s = .done .invalidInput id := by
  rw [changeLeds, if_pos hr, targets_single_of_ge h]

theorem programOf_of_beyond {s : State} (hr : s.ledState = .ready) {idx : Nat} (h : 7 ≤ idx) :
    ∀ i ∈ [Instr.ledSet idx, .ledOn idx, .ledOff idx], programOf i s = .done .invalidInput id := by
  have hchange := changeLeds_of_beyond hr h
  simp only [List.forall_mem_cons]
  exact ⟨hchange _, hchange _, hchange _, nofun⟩

/-- Settles O30: the check of the index precedes every event and update. -/
theorem ledTargetsResolved : Obligations.LedTargetsResolved :=
  ⟨rfl, fun _ h => targets_single_of_lt h, fun _ h => targets_single_of_ge h,
    fun _ _ hr h i hi => exec_of_done_id (programOf_of_beyond hr h i hi)⟩

/-! ### A command that passes its checks -/

/-- The events of a command that leaves the array `arr` (40_led_strip.md R126). -/
def ledCommandEvents (i : Instr) (s : State) (arr : Vector LedEntry 7) : List PinEvent :=
  if s.latch.wt = true ∨ i = .ledFlush then flushEvents arr else []

theorem ledCommandEvents_of_flushes {i : Instr} {s : State} (h : s.latch.wt = true ∨ i = .ledFlush) (arr : Vector LedEntry 7) :
    ledCommandEvents i s arr = flushEvents arr := if_pos h

theorem ledCommandEvents_of_ne_ledFlush {i : Instr} (hi : i ≠ .ledFlush) (s : State) (arr : Vector LedEntry 7) :
    ledCommandEvents i s arr = if s.latch.wt then flushEvents arr else [] := by
  simp only [ledCommandEvents, hi, or_false]

theorem ledCommandEvents_over {i : Instr} {s : State} (h : (s.latch.wt = false ∧ i ≠ .ledFlush) ∨ 812 ≤ s.latch.pos)
    (arr : Vector LedEntry 7) : (ledCommandEvents i s arr).length ≤ s.latch.pos := by
  rcases h with ⟨hwt, hi⟩ | hpos
  · rw [ledCommandEvents_of_ne_ledFlush hi, hwt]
    exact Nat.zero_le _
  · unfold ledCommandEvents
    split
    · rwa [flushEvents_length]
    · exact Nat.zero_le _

/-- The program of a set, on or off whose target resolves to `T`. -/
theorem programOf_of_targets {i : Instr} {s : State} {t : Target} {T : List Nat} {f : LedEntry → LedEntry}
    {arr : Vector LedEntry 7} (hp : programOf i s = changeLeds t f s) (hi : i ≠ .ledFlush) (hr : s.ledState = .ready)
    (ht : targets t = some T) (harr : updateLeds T f s.led = arr) :
    programOf i s = emitPins (ledCommandEvents i s arr) (.done .ok fun u => { u with led := arr }) := by
  rw [hp, changeLeds, if_pos hr, ht, ledCommandEvents_of_ne_ledFlush hi, ← harr]

/-- The program of an LED command that passes its checks: its events, then a commit that stores the array. -/
theorem programOf_of_changedLeds {i : Instr} {s : State} {arr : Vector LedEntry 7} (hr : s.ledState = .ready)
    (h : changedLeds i s = some arr) : ∃ f, (∀ u, u.led = s.led → f u = { u with led := arr }) ∧
      programOf i s = emitPins (ledCommandEvents i s arr) (.done .ok f) := by
  cases i with
  | ledSet idx | ledOn idx | ledOff idx =>
    obtain ⟨hidx, harr⟩ := Option.dite_none_right_eq_some.mp h
    exact ⟨_, fun _ _ => rfl, programOf_of_targets rfl nofun hr (targets_single_of_lt hidx)
      ((updateLeds_single idx hidx _ _).trans (Option.some.inj harr))⟩
  | ledSetAll =>
    have hreplicate : ∀ e : LedEntry, s.led.map (fun _ => e) = Vector.replicate 7 e :=
      fun e => Vector.ext fun _ _ => by simp
    exact ⟨_, fun _ _ => rfl, programOf_of_targets (t := .all) rfl nofun hr rfl
      ((updateLeds_all _ _).trans ((hreplicate _).trans (Option.some.inj h)))⟩
  | ledOnAll | ledOffAll =>
    exact ⟨_, fun _ _ => rfl, programOf_of_targets (t := .all) rfl nofun hr rfl
      ((updateLeds_all _ _).trans (Option.some.inj h))⟩
  | ledFlush =>
    cases h
    refine ⟨id, fun u hu => by rw [← hu]; rfl, ?_⟩
    rw [ledCommandEvents_of_flushes (.inr rfl)]
    exact if_pos hr
  | nop | ledDispose | envInit | envReadT | envReadP | envDispose | segInit | segShow | segDispose | disposeAll => cases h

theorem exec_emits_of_changedLeds {i : Instr} {s : State} {arr : Vector LedEntry 7} {e : PinEvent} (hr : s.ledState = .ready)
    (h : changedLeds i s = some arr) (hflush : s.latch.wt = true ∨ i = .ledFlush)
    (he : (flushEvents arr)[s.latch.pos]? = some e) : exec i s = .next (emitPin e s) := by
  obtain ⟨f, -, hp⟩ := programOf_of_changedLeds hr h
  rw [exec_eq, hp, ledCommandEvents_of_flushes hflush, advance_emitPins_of_some he]

theorem finish_ok (s : State) : finish .ok s = { s with code := .ok, latch := { s.latch with busy := false } } := by
  simp only [finish, codeFlag, stickyAfter_clear_none, BitVec.or_zero]

theorem exec_completes_of_changedLeds {i : Instr} {s : State} {arr : Vector LedEntry 7} (hr : s.ledState = .ready)
    (h : changedLeds i s = some arr) (hover : (s.latch.wt = false ∧ i ≠ .ledFlush) ∨ 812 ≤ s.latch.pos) :
    exec i s = .next { s with led := arr, code := .ok, latch := { s.latch with busy := false } } := by
  obtain ⟨f, hf, hp⟩ := programOf_of_changedLeds hr h
  rw [exec_eq, hp, advance_emitPins_of_le (ledCommandEvents_over hover arr), advance_done, hf s rfl, finish_ok]

theorem exec_stores_of_changedLeds {i : Instr} {s : State} {arr : Vector LedEntry 7} (hi : i ≠ .ledFlush)
    (hr : s.ledState = .ready) (hover : s.latch.wt = false ∨ 812 ≤ s.latch.pos) (h : changedLeds i s = some arr) :
    exec i s = .next { s with led := arr, code := .ok, latch := { s.latch with busy := false } } :=
  exec_completes_of_changedLeds hr h (hover.imp_left fun hwt => ⟨hwt, hi⟩)

/-- Settles O31: the array stored is the one `changedLeds` names. -/
theorem ledSetStores : Obligations.LedSetStores := fun _ hr hover =>
  ⟨fun _ h => exec_stores_of_changedLeds nofun hr hover (dif_pos h), exec_stores_of_changedLeds nofun hr hover rfl⟩

/-- Settles O32: the array stored is the one `changedLeds` names. -/
theorem ledOnStoresWhite : Obligations.LedOnStoresWhite := fun _ hr hover =>
  ⟨fun _ h => exec_stores_of_changedLeds nofun hr hover (dif_pos h), exec_stores_of_changedLeds nofun hr hover rfl⟩

/-- Settles O33: the array stored is the one `changedLeds` names. -/
theorem ledOffStoresBlack : Obligations.LedOffStoresBlack := fun _ hr hover =>
  ⟨fun _ h => exec_stores_of_changedLeds nofun hr hover (dif_pos h), exec_stores_of_changedLeds nofun hr hover rfl⟩

/-- Settles O35, by the position's place in the flush. -/
theorem ledFlushSendsAndCompletes : Obligations.LedFlushSendsAndCompletes := fun _ hr =>
  ⟨fun _ he => exec_emits_of_changedLeds hr rfl (.inr rfl) he,
    fun hpos => exec_completes_of_changedLeds (i := .ledFlush) hr rfl (.inr hpos)⟩

/-! ### Steps without a pin event -/

/-- A step of a program that is a completion leaves the LED port. -/
theorem exec_of_done_leaves_port {i : Instr} {s : State} (h : ∃ c f, programOf i s = .done c f) :
    ∃ t, exec i s = .next t ∧ t.latch.busy = false ∧ t.pinTrace = s.pinTrace ∧ t.pins = s.pins := by
  obtain ⟨c, f, hp⟩ := h
  have hleaf := programOf_allOf i s
  rw [hp] at hleaf
  obtain ⟨-, hcommit⟩ := hleaf
  refine ⟨finish c (f s), ?_, rfl, hcommit.pinTrace s, hcommit.pins s⟩
  rw [exec_eq, hp, advance_done]

theorem changeLeds_of_not_wt {s : State} (h : s.latch.wt = false) (t : Target) (f : LedEntry → LedEntry) :
    ∃ c g, changeLeds t f s = .done c g := by
  unfold changeLeds
  split
  · split
    · exact ⟨_, _, rfl⟩
    · rw [h]
      exact ⟨_, _, rfl⟩
  · exact ⟨_, _, rfl⟩

theorem programOf_of_not_wt {s : State} (h : s.latch.wt = false) (idx : Nat) :
    ∀ i ∈ [Instr.ledSet idx, .ledSetAll, .ledOn idx, .ledOnAll, .ledOff idx, .ledOffAll],
      ∃ c f, programOf i s = .done c f := by
  have hchange := changeLeds_of_not_wt h
  simp only [List.forall_mem_cons]
  exact ⟨hchange _ _, hchange .all _, hchange _ _, hchange .all _, hchange _ _, hchange .all _, nofun⟩

/-- Settles O34: the event of the flush, and the three ways a command is a completion from its start. -/
theorem writeThroughFlushes : Obligations.WriteThroughFlushes := by
  refine ⟨fun i s arr e hr h hflush he => exec_emits_of_changedLeds hr h hflush he,
    fun s idx hr h i hi => exec_of_done_leaves_port ⟨_, _, programOf_of_beyond hr h i hi⟩,
    fun s idx h i hi => exec_of_done_leaves_port ⟨_, _, programOf_of_not_ready h idx i (List.mem_append_left [_] hi)⟩,
    fun s idx h i hi => exec_of_done_leaves_port (programOf_of_not_wt h idx i hi), rfl⟩

/-! ### The run of a command that flushes -/

theorem pinsAfter_pulses_succ (n : Nat) (p : Pins) : pinsAfter (pulses (n + 1)) p = { p with clk := .low } := by
  induction n generalizing p with
  | zero => rfl
  | succ n ih => exact ih (pinsAfter pulse p)

theorem pinsAfter_flushTail (p : Pins) : pinsAfter flushTail p = ⟨.low, .low, .high⟩ := by
  have hpulses : pinsAfter (pulses Config.endPulses) (drive ⟨.data, .low⟩ p) = ⟨.low, .low, p.cs⟩ := pinsAfter_pulses_succ 31 _
  calc pinsAfter flushTail p
    _ = pinsAfter [csRelease] (pinsAfter (pulses Config.endPulses) (drive ⟨.data, .low⟩ p)) := pinsAfter_append _ _ _
    _ = ⟨.low, .low, .high⟩ := by rw [hpulses]; rfl

/-- A flush leaves the lines at their idle levels, whatever they were (40_led_strip.md R133). -/
theorem pinsAfter_flushEvents (arr : Vector LedEntry 7) (p : Pins) : pinsAfter (flushEvents arr) p = ⟨.low, .low, .high⟩ := by
  rw [flushEvents_eq, ← List.append_assoc, pinsAfter_append, pinsAfter_flushTail]

/-- Settles O37: the run of the flush's events, then the completion that stores the array. -/
theorem flushRunsToCompletion : Obligations.FlushRunsToCompletion := by
  intro i s arr ha hr h hflush
  have hrun := run_accepted ha
  obtain ⟨-, -, hpos, -⟩ := ha
  obtain ⟨f, hf, hp⟩ := programOf_of_changedLeds hr h
  rw [hp, ledCommandEvents_of_flushes hflush, runProgram_emitPins, runProgram_done,
    hf (afterPins (flushEvents arr) s) rfl, finish_ok, afterPins, flushEvents_length, pinsAfter_flushEvents, hpos] at hrun
  exact hrun

end Sys2Proof.Machine
end

section
/-!
PROOF. The raw sample and the compensation formulas (41_env_sensor.md R161, R162, R164).
-/
namespace Sys2Proof.Machine

/-! ### The raw sample -/

/-- The three fields do not overlap, so their union is their sum (41_env_sensor.md R161). -/
theorem raw20_toNat (msb lsb xlsb : Byte) :
    (raw20 msb lsb xlsb).toNat = msb.toNat * 4096 + lsb.toNat * 16 + xlsb.toNat / 16 := by
  have hm := msb.isLt
  have hl := lsb.isLt
  have hx := xlsb.isLt
  have hlow : xlsb.toNat / 16 < 2 ^ 4 := by omega
  have hmid : lsb.toNat <<< 4 + xlsb.toNat / 16 < 2 ^ 12 := by rw [Nat.shiftLeft_eq]; omega
  calc (raw20 msb lsb xlsb).toNat
    _ = msb.toNat <<< 12 ||| lsb.toNat <<< 4 ||| xlsb.toNat / 16 := by
      simp only [raw20, BitVec.toNat_or, BitVec.toNat_shiftLeft, BitVec.toNat_setWidth, BitVec.toNat_ushiftRight,
        BitVec.truncate_eq_setWidth, Nat.shiftLeft_eq, Nat.shiftRight_eq_div_pow]
      congr 2 <;> omega
    _ = msb.toNat <<< 12 + (lsb.toNat <<< 4 + xlsb.toNat / 16) := by
      rw [Nat.or_assoc, ← Nat.shiftLeft_add_eq_or_of_lt hlow, ← Nat.shiftLeft_add_eq_or_of_lt hmid]
    _ = msb.toNat * 4096 + lsb.toNat * 16 + xlsb.toNat / 16 := by
      rw [Nat.shiftLeft_eq, Nat.shiftLeft_eq, Nat.add_assoc]

/-- A field of a word is the quotient by its place, modulo its size. -/
theorem extractLsb'_eq_of_toNat {w k n : Nat} {x : BitVec w} {y : BitVec n} (h : x.toNat / 2 ^ k % 2 ^ n = y.toNat) :
    x.extractLsb' k n = y := by
  apply BitVec.eq_of_toNat_eq
  rw [BitVec.extractLsb'_toNat, Nat.shiftRight_eq_div_pow, h]

/-- Settles O42: each field is a quotient of the sum. -/
theorem rawSampleAssembled : Obligations.RawSampleAssembled := by
  refine ⟨fun msb lsb xlsb => ?_, by decide, by decide, by decide⟩
  have hsum := raw20_toNat msb lsb xlsb
  have hm := msb.isLt
  have hl := lsb.isLt
  have hx := xlsb.isLt
  have hnibble : (xlsb.extractLsb' 4 4).toNat = xlsb.toNat / 16 := by
    rw [BitVec.extractLsb'_toNat, Nat.shiftRight_eq_div_pow]
    omega
  refine ⟨hsum, extractLsb'_eq_of_toNat ?_, extractLsb'_eq_of_toNat ?_, extractLsb'_eq_of_toNat ?_⟩
  · omega
  · omega
  · omega

/-! ### The compensation formulas -/

theorem s32_range (v : Int) : -2147483648 ≤ s32 v ∧ s32 v < 2147483648 := ⟨BitVec.le_toInt _, BitVec.toInt_lt⟩

/-- Settles O43: t_fine is the last of the formula's wraps to 32 bits, and the values are computed. -/
theorem compensationValues : Obligations.CompensationValues := by
  refine ⟨fun _ _ _ _ => s32_range _, ?_⟩
  decide

/-- The divisor is a product with P1, shifted. -/
theorem compPDivisor_of_P1_zero (tf P2 P3 : Int) : compPDivisor tf 0 P2 P3 = 0 := by
  simp only [compPDivisor, Int.mul_zero]
  rfl

theorem compP_eq_none_iff (adcP tf P1 P2 P3 P4 P5 P6 P7 P8 P9 : Int) :
    compP adcP tf P1 P2 P3 P4 P5 P6 P7 P8 P9 = none ↔ compPDivisor tf P1 P2 P3 = 0 := by
  simp only [compP, ite_eq_left_iff, reduceCtorEq, imp_false, Decidable.not_not]

/-- Settles O44: the guard is the test of the divisor, and the divisor has the factor P1. -/
theorem pressureGuard : Obligations.PressureGuard :=
  ⟨compP_eq_none_iff, fun _ tf P2 P3 _ _ _ _ _ _ => (compP_eq_none_iff ..).mpr (compPDivisor_of_P1_zero tf P2 P3)⟩

end Sys2Proof.Machine
end

section
/-!
PROOF. `env.init`: its checks, its commit and its whole run (41_env_sensor.md R170).
-/
namespace Sys2Proof.Machine

/-- One step of a command, from its program, position and answers. -/
theorem exec_eq_advance {i : Instr} {s : State} {p : Program} {pos : Nat} {rx : List Answer} (hp : programOf i s = p)
    (hpos : s.latch.pos = pos) (hrx : s.latch.rx = rx) : exec i s = .next (advance p pos rx s) := by
  rw [exec_eq, hp, hpos, hrx]

/-- An engine that is INITIALIZING already is left as it is. -/
theorem setReadiness_env_of_eq {r : Readiness} {s : State} (h : s.envState = r) : setReadiness .env r s = s := by
  rw [← h]
  rfl

/-! ### The rule after its readiness check, part by part -/

/-- The rule of `env.init` once the signature has matched: the captures, the control write and the commit. -/
def envInitCapture (p : Params) (coef : Vector (BitVec 16) 12) : Program :=
  captureCoefs p coefOrder coef fun coef' =>
    .write p.envAddr [p.envCtrlReg, p.envCtrlValue] (.done .ok (envInitCommit coef'))

/-- The rule of `env.init` once the ID has been read. -/
def envInitAfterId (p : Params) (coef : Vector (BitVec 16) 12) (id : Byte) : Program :=
  if id = p.envSignature then envInitCapture p coef else .done .signatureMismatch (setReadiness .env .failed)

/-- The rule of `env.init` once the probe has been answered. -/
def envInitAfterProbe (p : Params) (coef : Vector (BitVec 16) 12) (ack : Bool) : Program :=
  if ack then .read p.envAddr p.envIdReg 1 fun id => envInitAfterId p coef id[0]
  else .done .deviceNotFound (setReadiness .env .failed)

theorem programOf_envInit_of_probes {s : State} (h : s.envState = .uninitialized ∨ s.envState = .initializing) :
    programOf .envInit s =
      .initializing .env (.probe s.params.envAddr (envInitAfterProbe s.params s.coef)) := by
  change envInitProgram s = _
  unfold envInitProgram
  rcases h with h | h
  · rw [h]; rfl
  · rw [h]; rfl

/-- A step of `env.init` past its probe goes on with what follows the probe's answer. -/
theorem exec_envInit_after_probe {s : State} {pos : Nat} {ack : Bool} {rx : List Answer} (h : s.envState = .initializing)
    (hpos : s.latch.pos = pos + 1) (hrx : s.latch.rx = .ack ack :: rx) :
    exec .envInit s = .next (advance (envInitAfterProbe s.params s.coef ack) pos rx s) := by
  rw [exec_eq_advance (programOf_envInit_of_probes (.inr h)) hpos hrx, advance_initializing, advance_probe_ack,
    setReadiness_env_of_eq h]

/-- A step of `env.init` past its ID read goes on with what follows the ID. -/
theorem exec_envInit_after_id {s : State} {pos : Nat} {id : Byte} {rx : List Answer} (h : s.envState = .initializing)
    (hpos : s.latch.pos = pos + 2) (hrx : s.latch.rx = .ack true :: .bytes [id] :: rx) :
    exec .envInit s = .next (advance (envInitAfterId s.params s.coef id) pos rx s) := by
  rw [exec_envInit_after_probe h hpos hrx, envInitAfterProbe, if_pos rfl, advance_read_one]
  rfl

/-! ### Single steps -/

/-- Settles O45, by the part of the rule each step reaches. -/
theorem envInitChecks : Obligations.EnvInitChecks := by
  intro s
  refine ⟨fun h => ?_, fun h => ?_, exec_envInit_first, fun h hpos hrx => ?_, fun h hpos hrx => ?_,
    fun id h hpos hrx hid => ?_⟩
  · have hp : programOf .envInit s = .done .ok id := by simp only [programOf, envInitProgram, h]
    rw [exec_eq, hp, advance_done, finish_ok, id]
  · have hp : programOf .envInit s = .done .notReady id := by
      rcases h with h | h <;> simp only [programOf, envInitProgram, h]
    exact exec_of_done_id hp
  · rw [exec_envInit_after_probe h hpos hrx, envInitAfterProbe, if_neg nofun, advance_done, finish_eq_completed]
    rfl
  · rw [exec_envInit_after_probe h hpos hrx, envInitAfterProbe, if_pos rfl, advance_read_zero]
  · rw [exec_envInit_after_id h hpos hrx, envInitAfterId, if_neg hid, advance_done, finish_eq_completed]
    rfl

/-- Settles O46: position 15 is past the twelve captures and the control write. -/
theorem envInitCommits : Obligations.EnvInitCommits := by
  intro s lo hi h hpos hrx
  have hanswers : s.latch.rx = .ack true :: .bytes [s.params.envSignature] ::
      (coefOrder.map (fun k => .bytes [lo k, hi k]) ++ []) := hrx
  rw [exec_envInit_after_id (pos := coefOrder.length + 1) h hpos hanswers, envInitAfterId, if_pos rfl, envInitCapture,
    advance_captureCoefs, coefOrder_set_all, advance_write_succ, advance_done, finish_ok]
  rfl

/-! ### The whole run -/

theorem afterCapture_coefOrder (s : State) : ∃ rx, afterCapture coefOrder s = { s with
    busTrace := s.busTrace ++ List.ofFn fun k : Fin 12 =>
      .read s.params.envAddr s.params.envCalReg[k] [byteAhead s (2 * k.val), byteAhead s (2 * k.val + 1)]
    latch := { s.latch with pos := s.latch.pos + 12, rx := rx }
    byteTape := s.byteTape.drop 24
    byteDraws := s.byteDraws + (24 - s.byteTape.length) } := by
  obtain ⟨evs, rx, h, hevs⟩ := afterCapture_eq coefOrder s
  subst hevs
  exact ⟨rx, h⟩

/-- The run from the signature's match on: twelve captures, the control write and the completion. -/
theorem runProgram_envInitCapture {s : State} {p : Params} (hp : s.params = p) (v : Vector (BitVec 16) 12) : ∃ rx,
    runProgram (envInitCapture p v) s = (14, { s with
      envState := .ready, calValid := true
      coef := Vector.ofFn fun k => byteAhead s (2 * k.val + 1) ++ byteAhead s (2 * k.val)
      code := .ok
      busTrace := s.busTrace
        ++ List.ofFn (fun k : Fin 12 =>
            .read p.envAddr p.envCalReg[k] [byteAhead s (2 * k.val), byteAhead s (2 * k.val + 1)])
        ++ [.write p.envAddr [p.envCtrlReg, p.envCtrlValue]]
      byteTape := s.byteTape.drop 24
      byteDraws := s.byteDraws + (24 - s.byteTape.length)
      latch := { s.latch with busy := false, pos := s.latch.pos + 13, rx := rx } }) := by
  subst hp
  obtain ⟨rx, h⟩ := afterCapture_coefOrder s
  refine ⟨rx, ?_⟩
  rw [envInitCapture, runProgram_captureCoefs, runProgram_write, runProgram_done, finish_ok, h]
  rfl

/-- The state of an accepted `env.init` after its probe and its ID read. -/
def afterIdRead (s : State) : State :=
  emitRead s.params.envAddr s.params.envIdReg 1 (emitProbe s.params.envAddr (setReadiness .env .initializing s))

theorem byteAhead_afterIdRead (s : State) (k : Nat) : byteAhead (afterIdRead s) k = byteAhead s (k + 1) := by
  rw [afterIdRead, byteAhead_emitRead, byteAhead_emitProbe, byteAhead_setReadiness, Nat.add_comm]

theorem afterIdRead_eq {s : State} (hack : nextAck s = true) (hid : byteAhead s 0 = s.params.envSignature) :
    ∃ rx, afterIdRead s = { s with
      envState := .initializing
      busTrace := s.busTrace
        ++ [.probe s.params.envAddr true, .read s.params.envAddr s.params.envIdReg [s.params.envSignature]]
      latch := { s.latch with pos := s.latch.pos + 2, rx := rx }
      ackTape := s.ackTape.drop 1, ackDraws := s.ackDraws + (1 - s.ackTape.length)
      byteTape := s.byteTape.drop 1, byteDraws := s.byteDraws + (1 - s.byteTape.length) } := by
  refine ⟨s.latch.rx ++ [.ack (nextAck s)] ++ [.bytes (nextBytes s 1)], ?_⟩
  rw [List.append_cons s.busTrace, ← hack, ← hid]
  rfl

/-- With the probe acknowledged and the signature as ID the run is that of the captures, two steps on. -/
theorem runProgram_envInit {s : State} (h : s.envState = .uninitialized) (hack : nextAck s = true)
    (hid : byteAhead s 0 = s.params.envSignature) : runProgram (programOf .envInit s) s =
      ((runProgram (envInitCapture s.params s.coef) (afterIdRead s)).1 + 2,
        (runProgram (envInitCapture s.params s.coef) (afterIdRead s)).2) := by
  have hmatch : envInitAfterId s.params s.coef (byteAhead s 0) = envInitCapture s.params s.coef := if_pos hid
  rw [programOf_envInit_of_probes (.inl h), ← hmatch, runProgram_initializing, runProgram_probe, nextAck_setReadiness, hack]
  rfl

/-- Settles O47: the probe and the ID read, then the run of the captures. -/
theorem envInitRunsToReady : Obligations.EnvInitRunsToReady := by
  intro s ha h hack hid
  have hrun := run_accepted ha
  obtain ⟨-, -, hpos, -⟩ := ha
  obtain ⟨rx, hcapture⟩ := runProgram_envInitCapture (s := afterIdRead s) (p := s.params) rfl s.coef
  obtain ⟨_, hread⟩ := afterIdRead_eq hack hid
  have hdraws : s.byteDraws + (1 - s.byteTape.length) + (24 - (s.byteTape.length - 1)) =
      s.byteDraws + (25 - s.byteTape.length) := by omega
  rw [runProgram_envInit h hack hid, hcapture] at hrun
  simp only [byteAhead_afterIdRead] at hrun
  rw [hread, hpos, List.drop_drop, List.length_drop, hdraws] at hrun
  exact ⟨rx, hrun⟩

end Sys2Proof.Machine
end

section
/-!
PROOF. `env.readt` and `env.readp`: each step, and the run of `env.readp` (41_env_sensor.md R171 to R174).
-/
namespace Sys2Proof.Machine

theorem programOf_readings_of_not_ready {s : State} (h : s.envState ≠ .ready) :
    ∀ i ∈ [Instr.envReadT, .envReadP], programOf i s = .done .notReady (setResults 0#32 0#32 0#32) := by
  simp only [List.forall_mem_cons]
  exact ⟨if_neg h, if_neg h, nofun⟩

/-- Outside READY a reading zeroes the results and makes no transaction. -/
theorem exec_readings_of_not_ready {s : State} (h : s.envState ≠ .ready) :
    ∀ i ∈ [Instr.envReadT, .envReadP], exec i s = .next (completed .notReady (setResults 0#32 0#32 0#32 s)) := by
  intro i hi
  rw [exec_eq, programOf_readings_of_not_ready h i hi, advance_done, finish_eq_completed]

theorem programOf_envReadT_of_ready {s : State} (h : s.envState = .ready) : programOf .envReadT s =
    readRaw s.params s.params.envTempMsbReg fun adcT =>
      .done .ok (setResults (tFineWord (tFineOf s adcT)) (sampleWord adcT) (tFineWord (tFineOf s adcT))) := if_pos h

/-- Settles O48: the completion outside READY, and in READY the read, then the report. -/
theorem envReadTReports : Obligations.EnvReadTReports := by
  intro s
  refine ⟨fun h => exec_readings_of_not_ready h .envReadT (by simp), fun h hpos => ?_, fun m l x h hpos hrx => ?_⟩
  · rw [exec_eq_advance (programOf_envReadT_of_ready h) hpos rfl, readRaw, advance_read_zero]
  · rw [exec_eq_advance (programOf_envReadT_of_ready h) hpos hrx, readRaw, advance_read_three, advance_done, finish_ok]
    rfl

/-! ### The report of `env.readp` -/

/-- The code `env.readp` ends with, from the formula's answer (41_env_sensor.md R173). -/
def pressureCode (r : Option Word) : Code := if r = none then .arithGuard else .ok

/-- The end of `env.readp` for a temperature sample's t_fine, a pressure sample and the formula's answer: both endings
write the same RESULT1 and RESULT2 (41_env_sensor.md R173). -/
def reportPressure (tf : Int) (adcP : BitVec 20) (r : Option Word) : Program :=
  .done (pressureCode r) (setResults (r.getD 0#32) (sampleWord adcP) (tFineWord tf))

theorem programOf_envReadP_of_ready {s : State} (h : s.envState = .ready) : programOf .envReadP s =
    readRaw s.params s.params.envTempMsbReg fun adcT =>
      readRaw s.params s.params.envPressMsbReg fun adcP =>
        reportPressure (tFineOf s adcT) adcP (pressureOf s adcP (tFineOf s adcT)) := by
  change envReadPProgram s = _
  rw [envReadPProgram, if_pos h]
  refine congrArg (readRaw _ _) (funext fun adcT => congrArg (readRaw _ _) (funext fun adcP => ?_))
  cases pressureOf s adcP (tFineOf s adcT) with
  | none => rfl
  | some p32 => rfl

/-- The coefficients of the temperature formula, each with its signedness (41_env_sensor.md R160). -/
theorem tFineOf_eq (s : State) (adcT : BitVec 20) :
    tFineOf s adcT = compT adcT.toNat s.coef[0].toNat s.coef[1].toInt s.coef[2].toInt := rfl

/-- The coefficients of the pressure formula, each with its signedness (41_env_sensor.md R160). -/
theorem pressureOf_eq (s : State) (adcP : BitVec 20) (tf : Int) : pressureOf s adcP tf =
    compP adcP.toNat tf s.coef[3].toNat s.coef[4].toInt s.coef[5].toInt s.coef[6].toInt s.coef[7].toInt
      s.coef[8].toInt s.coef[9].toInt s.coef[10].toInt s.coef[11].toInt := rfl

/-- The step of `env.readp` after both reads. -/
theorem exec_envReadP_reports {s : State} {m l x m' l' x' : Byte} (h : s.envState = .ready) (hpos : s.latch.pos = 2)
    (hrx : s.latch.rx = [.bytes [m, l, x], .bytes [m', l', x']]) {tf : Int} {adcP : BitVec 20} {r : Option Word}
    (htf : tFineOf s (raw20 m l x) = tf) (hadcP : raw20 m' l' x' = adcP) (hr : pressureOf s adcP tf = r) :
    exec .envReadP s = .next (finish (pressureCode r) (setResults (r.getD 0#32) (sampleWord adcP) (tFineWord tf) s)) := by
  rw [exec_eq_advance (programOf_envReadP_of_ready h) hpos hrx, readRaw, advance_read_three, readRaw, advance_read_three,
    ← hr, ← htf, ← hadcP]
  rfl

/-- Settles O49: the completion outside READY, and in READY the two reads, then the report. -/
theorem envReadPReports : Obligations.EnvReadPReports := by
  intro s
  refine ⟨fun h => exec_readings_of_not_ready h .envReadP (by simp), fun h hpos => ?_, fun m l x h hpos hrx => ?_,
    fun m l x m' l' x' h hpos hrx => ?_⟩
  · rw [exec_eq_advance (programOf_envReadP_of_ready h) hpos rfl, readRaw, advance_read_zero]
  · rw [exec_eq_advance (programOf_envReadP_of_ready h) hpos hrx, readRaw, advance_read_three, readRaw, advance_read_zero]
  · have hstep {r : Option Word} := exec_envReadP_reports (r := r) h hpos hrx (tFineOf_eq s _) rfl
    refine ⟨fun hr => ?_, fun p32 hr => ?_⟩
    · exact (hstep hr).trans (congrArg _ (finish_eq_completed .arithGuard _))
    · exact (hstep hr).trans (congrArg _ (finish_ok _))

/-! ### The run of `env.readp` -/

/-- The state after the two reads of `env.readp`, temperature first (41_env_sensor.md R173). -/
def afterReadings (s : State) : State :=
  emitRead s.params.envAddr s.params.envPressMsbReg 3 (emitRead s.params.envAddr s.params.envTempMsbReg 3 s)

theorem afterReadings_busTrace (s : State) : (afterReadings s).busTrace = s.busTrace ++
    [.read s.params.envAddr s.params.envTempMsbReg [byteAhead s 0, byteAhead s 1, byteAhead s 2],
     .read s.params.envAddr s.params.envPressMsbReg [byteAhead s 3, byteAhead s 4, byteAhead s 5]] := by
  rw [afterReadings, emitRead_busTrace, emitRead_busTrace, nextBytes_three, nextBytes_three, byteAhead_emitRead,
    byteAhead_emitRead, byteAhead_emitRead, List.append_assoc, List.singleton_append]

/-- The two reads, then the report on their bytes. -/
theorem run_envReadP {s : State} (ha : Accepted .envReadP s) (h : s.envState = .ready) {tf : Int} {adcP : BitVec 20}
    {r : Option Word} (htf : tFineOf s (raw20 (byteAhead s 0) (byteAhead s 1) (byteAhead s 2)) = tf)
    (hadcP : raw20 (byteAhead s 3) (byteAhead s 4) (byteAhead s 5) = adcP) (hr : pressureOf s adcP tf = r) :
    runSteps 3 s = .next (finish (pressureCode r)
      (setResults (r.getD 0#32) (sampleWord adcP) (tFineWord tf) (afterReadings s))) := by
  have hrun := run_accepted ha
  simp only [programOf_envReadP_of_ready h, readRaw, runProgram_read_three, byteAhead_emitRead] at hrun
  rw [← hr, ← htf, ← hadcP]
  exact hrun

/-- Settles O50: the report touches neither trace, the readiness nor the coefficients. -/
theorem envReadPRunsOnFreshSamples : Obligations.EnvReadPRunsOnFreshSamples := by
  intro s ha h adcT adcP tf r
  have hrun : runSteps 3 s = .next (finish (pressureCode r)
      (setResults (r.getD 0#32) (sampleWord adcP) (tFineWord tf) (afterReadings s))) :=
    run_envReadP ha h (tFineOf_eq s adcT) rfl (pressureOf_eq s adcP tf)
  clear_value r tf
  exact ⟨_, hrun, rfl, afterReadings_busTrace s, rfl, rfl, rfl, rfl, rfl, h, rfl⟩

end Sys2Proof.Machine
end

section
/-!
PROOF. `seg.init`: its checks, its setup writes and its whole run (42_segment_display.md R210).
-/
namespace Sys2Proof.Machine

/-- An engine that is INITIALIZING already is left as it is. -/
theorem setReadiness_seg_of_eq {r : Readiness} {s : State} (h : s.segState = r) : setReadiness .seg r s = s := by
  rw [← h]
  rfl

/-! ### One-byte writes -/

/-- A program that writes the bytes in order, one transaction each, and goes on. -/
def byteWrites (a : BusAddr) (bs : List Byte) (next : Program) : Program := bs.foldr (fun b => .write a [b]) next

theorem advance_byteWrites_of_some {bs : List Byte} {pos : Nat} {b : Byte} (h : bs[pos]? = some b) (a : BusAddr)
    (k : Program) (rx : List Answer) (s : State) : advance (byteWrites a bs k) pos rx s = emitWrite a [b] s := by
  induction bs generalizing pos with
  | nil => cases h
  | cons b' bs ih =>
    cases pos with
    | zero =>
      cases h
      rfl
    | succ pos => exact ih h

theorem advance_byteWrites_of_le {bs : List Byte} {pos : Nat} (h : bs.length ≤ pos) (a : BusAddr) (k : Program)
    (rx : List Answer) (s : State) :
    advance (byteWrites a bs k) pos rx s = advance k (pos - bs.length) rx s := by
  induction bs generalizing pos with
  | nil => rfl
  | cons b bs ih =>
    obtain ⟨pos, rfl⟩ := Nat.exists_eq_succ_of_ne_zero (Nat.ne_zero_of_lt h)
    rw [List.length_cons, Nat.succ_eq_add_one, Nat.add_sub_add_right]
    exact ih (Nat.le_of_succ_le_succ h)

/-! ### The rule after its readiness check, part by part -/

/-- The setup bytes of the display, in the order they are written (42_segment_display.md R210). -/
def setupBytes (p : Params) : List Byte := [p.segCmdSystem, p.segCmdDisplay, p.segCmdBright]

/-- The rule of `seg.init` once the probe has been answered. -/
def segInitAfterProbe (p : Params) (ack : Bool) : Program :=
  if ack then byteWrites (Config.segAddr p) (setupBytes p) (.done .ok (setReadiness .seg .ready))
  else .done .deviceNotFound (setReadiness .seg .failed)

theorem programOf_segInit_of_probes {s : State} (h : s.segState = .uninitialized ∨ s.segState = .initializing) :
    programOf .segInit s =
      .initializing .seg (.probe (Config.segAddr s.params) (segInitAfterProbe s.params)) := by
  change segInitProgram s = _
  unfold segInitProgram
  rcases h with h | h
  · rw [h]; rfl
  · rw [h]; rfl

/-- A step of `seg.init` past its probe goes on with what follows the probe's answer. -/
theorem exec_segInit_after_probe {s : State} {pos : Nat} {ack : Bool} {rx : List Answer} (h : s.segState = .initializing)
    (hpos : s.latch.pos = pos + 1) (hrx : s.latch.rx = .ack ack :: rx) :
    exec .segInit s = .next (advance (segInitAfterProbe s.params ack) pos rx s) := by
  rw [exec_eq_advance (programOf_segInit_of_probes (.inr h)) hpos hrx, advance_initializing, advance_probe_ack,
    setReadiness_seg_of_eq h]

/-- A step of `seg.init` past an acknowledged probe is one of its setup writes or of its completion. -/
theorem exec_segInit_after_ack {s : State} (h : s.segState = .initializing) (hrx : s.latch.rx = [.ack true])
    (hpos : 1 ≤ s.latch.pos) : exec .segInit s =
      .next (advance (byteWrites (Config.segAddr s.params) (setupBytes s.params) (.done .ok (setReadiness .seg .ready)))
        (s.latch.pos - 1) [] s) := by
  rw [exec_segInit_after_probe h (Nat.sub_add_cancel hpos).symm hrx, segInitAfterProbe, if_pos rfl]

/-- Settles O52, by the part of the rule each step reaches. -/
theorem segInitBringsUp : Obligations.SegInitBringsUp := by
  intro s
  refine ⟨fun h => ?_, fun h => ?_, exec_segInit_first, fun h hpos hrx => ?_, fun b h hrx hpos hb => ?_,
    fun h hrx hpos => ?_⟩
  · have hp : programOf .segInit s = .done .ok id := by simp only [programOf, segInitProgram, h]
    rw [exec_eq, hp, advance_done, finish_ok, id]
  · have hp : programOf .segInit s = .done .notReady id := by
      rcases h with h | h <;> simp only [programOf, segInitProgram, h]
    exact exec_of_done_id hp
  · rw [exec_segInit_after_probe h hpos hrx, segInitAfterProbe, if_neg nofun, advance_done, finish_eq_completed]
    rfl
  · have hbyte : (setupBytes s.params)[s.latch.pos - 1]? = some b := hb
    rw [exec_segInit_after_ack h hrx hpos, advance_byteWrites_of_some hbyte]
  · have hover : (setupBytes s.params).length ≤ s.latch.pos - 1 := Nat.le_sub_one_of_lt hpos
    rw [exec_segInit_after_ack h hrx (Nat.one_le_of_lt hpos), advance_byteWrites_of_le hover, advance_done, finish_ok]
    rfl

/-! ### The whole run -/

/-- The state after the one-byte writes. -/
def afterByteWrites (a : BusAddr) (bs : List Byte) (s : State) : State :=
  { s with busTrace := s.busTrace ++ bs.map fun b => .write a [b]
           latch := { s.latch with pos := s.latch.pos + bs.length } }

theorem afterByteWrites_cons (a : BusAddr) (b : Byte) (bs : List Byte) (s : State) :
    afterByteWrites a bs (emitWrite a [b] s) = afterByteWrites a (b :: bs) s := by
  simp only [afterByteWrites, emitWrite, List.append_assoc, List.singleton_append, List.map_cons, List.length_cons,
    Nat.add_assoc, Nat.add_comm 1]

theorem runProgram_byteWrites (a : BusAddr) (bs : List Byte) (k : Program) (s : State) : runProgram (byteWrites a bs k) s =
    ((runProgram k (afterByteWrites a bs s)).1 + bs.length, (runProgram k (afterByteWrites a bs s)).2) := by
  induction bs generalizing s with
  | nil => simp [byteWrites, afterByteWrites]
  | cons b bs ih =>
    change runProgram (.write a [b] (byteWrites a bs k)) s = _
    rw [runProgram_write, ih, afterByteWrites_cons]
    rfl

/-- The state of an accepted `seg.init` after its probe. -/
def afterSegProbe (s : State) : State := emitProbe (Config.segAddr s.params) (setReadiness .seg .initializing s)

theorem afterSegProbe_busTrace {s : State} {ack : Bool} (hack : nextAck s = ack) :
    (afterSegProbe s).busTrace = s.busTrace ++ [.probe (Config.segAddr s.params) ack] := by
  rw [← hack]
  rfl

/-- The run of an accepted `seg.init`: the probe, then what follows its answer. -/
theorem run_segInit {s : State} {ack : Bool} (ha : Accepted .segInit s) (h : s.segState = .uninitialized)
    (hack : nextAck s = ack) : runSteps ((runProgram (segInitAfterProbe s.params ack) (afterSegProbe s)).1 + 1) s =
      .next (runProgram (segInitAfterProbe s.params ack) (afterSegProbe s)).2 := by
  have hrun := run_accepted ha
  rw [programOf_segInit_of_probes (.inl h), runProgram_initializing, runProgram_probe, nextAck_setReadiness, hack] at hrun
  exact hrun

/-- Settles O53: past the probe, either the three setup writes and the completion, or the completion at once. -/
theorem segInitRunsToReady : Obligations.SegInitRunsToReady := by
  intro s ha h
  refine ⟨fun hack => ?_, fun hack => ?_⟩
  · have hrun := run_segInit ha h hack
    rw [segInitAfterProbe, if_pos rfl, runProgram_byteWrites, runProgram_done] at hrun
    refine ⟨_, hrun, rfl, rfl, rfl, rfl, ?_⟩
    rw [finish_busTrace, setReadiness_busTrace, afterByteWrites, afterSegProbe_busTrace hack, List.append_assoc]
    rfl
  · have hrun := run_segInit ha h hack
    rw [segInitAfterProbe, if_neg nofun, runProgram_done] at hrun
    exact ⟨_, hrun, rfl, rfl, rfl, afterSegProbe_busTrace hack⟩

end Sys2Proof.Machine
end

section
/-!
PROOF. `seg.show`: its checks, the frame write and the cells of a text (42_segment_display.md R211 to R215).
-/
namespace Sys2Proof.Machine

/-- The pointer byte, then the cells, low byte first (42_segment_display.md R213, 20_memory.md R81). -/
theorem frameBytes_eq (cells : Vector Mask 4) : frameBytes cells =
    [0x00#8, cells[0].extractLsb' 0 8, cells[0].extractLsb' 8 8, cells[1].extractLsb' 0 8, cells[1].extractLsb' 8 8,
     cells[2].extractLsb' 0 8, cells[2].extractLsb' 8 8, cells[3].extractLsb' 0 8, cells[3].extractLsb' 8 8] := by
  obtain ⟨⟨cells⟩, hsize⟩ := cells
  match cells, hsize with
  | [_, _, _, _], _ => rfl

theorem programOf_segShow_of_fits {s : State} (h : s.segState = .ready) {n : Nat} (hn : n ≤ 4) (a : Align) :
    programOf (.segShow n a) s = frameWrite s.params (textCells s.params n a s.latch.a0)
      (.done .ok fun u => { u with frame := textCells s.params n a s.latch.a0 }) :=
  (if_pos h).trans (if_neg (Nat.not_lt.mpr hn))

/-- Settles O54: the two checks come before the frame write, which is the rule's only event. -/
theorem segShowWritesTheFrame : Obligations.SegShowWritesTheFrame := by
  intro s n a
  refine ⟨fun h => exec_of_done_id (if_neg h), fun h hn => exec_of_done_id ((if_pos h).trans (if_pos hn)),
    fun h hn hpos => ?_, fun h hn hpos => ?_⟩
  · rw [exec_eq_advance (programOf_segShow_of_fits h hn a) hpos rfl, frameWrite, advance_write_zero, frameBytes_eq]
  · rw [exec_eq_advance (programOf_segShow_of_fits h hn a) (Nat.sub_add_cancel hpos).symm rfl, frameWrite,
      advance_write_succ, advance_done, finish_ok]

/-! ### The cells of a text -/

theorem textCells_getElem (p : Params) (n : Nat) (a : Align) (a0 : Word) (c : Fin 4) : (textCells p n a a0)[c] =
    if textOffset n a ≤ c.val ∧ c.val < textOffset n a + n then enc p (textChar a0 (c.val - textOffset n a))
    else enc p 0x20#8 := Vector.getElem_ofFn c.isLt

theorem enc_of_charset_some {p : Params} {c : Byte} {m : Mask} (h : Config.charset p c = some m) : enc p c = m := by
  rw [enc, h, Option.getD_some]

/-- A code without an entry takes the space mask (42_segment_display.md R214). -/
theorem enc_of_charset_none {p : Params} {c : Byte} (h : Config.charset p c = none) : enc p c = p.spaceMask := by
  rw [enc, h, Option.getD_none]

theorem charset_space (p : Params) : Config.charset p 0x20#8 = some p.spaceMask := if_pos rfl

theorem enc_space (p : Params) : enc p 0x20#8 = p.spaceMask := enc_of_charset_some (charset_space p)

/-- Settles O55: the cells of each alignment are those past its offset, and the space is an entry like any other. -/
theorem textAlignedWithSpaceFallback : Obligations.TextAlignedWithSpaceFallback := by
  refine ⟨fun p n a0 c hn => ⟨?_, ?_⟩, fun _ _ _ => enc_of_charset_some,
    fun p _ h => (enc_of_charset_none h).trans (enc_space p).symm, fun p => by rw [enc_space, charset_space]⟩
  · have hleft : textOffset n .left ≤ c.val ∧ c.val < textOffset n .left + n ↔ c.val < n := by
      simp only [textOffset]
      omega
    exact (textCells_getElem p n .left a0 c).trans (ite_congr (propext hleft) (fun _ => rfl) fun _ => rfl)
  · have hright : textOffset n .right ≤ c.val ∧ c.val < textOffset n .right + n ↔ 4 - n ≤ c.val := by
      simp only [textOffset, Config.segCells]
      omega
    exact (textCells_getElem p n .right a0 c).trans (ite_congr (propext hright) (fun _ => rfl) fun _ => rfl)

end Sys2Proof.Machine
end

section
/-!
PROOF. `led.dispose`: the off-frame, the release of the lines and the completion, step by step and as a whole run
(43_system.md R240).
-/
namespace Sys2Proof.Machine

theorem ledDisposeEvents_eq (s : State) : ledDisposeEvents s =
    flushEvents (s.led.map fun e => ⟨e.level, 0#8, 0#8, 0#8⟩) ++ [⟨.data, .z⟩, ⟨.clk, .z⟩, ⟨.cs, .z⟩] := by
  rw [ledDisposeEvents, allOff_eq]
  rfl

theorem ledDisposeEvents_length (s : State) : (ledDisposeEvents s).length = 815 := by
  rw [ledDisposeEvents, List.length_append, flushEvents_length]
  rfl

/-- The three Z writes leave nothing of the levels before them (10_state.md R37). -/
theorem pinsAfter_ledDisposeEvents (s : State) (p : Pins) : pinsAfter (ledDisposeEvents s) p = ⟨.z, .z, .z⟩ :=
  pinsAfter_append _ _ _

theorem ledDisposeCommit_eq (arr : Vector LedEntry 7) (u : State) : ledDisposeCommit arr u =
    { u with led := arr.map fun e => ⟨e.level, 0#8, 0#8, 0#8⟩, ledState := .released } := by
  rw [ledDisposeCommit, allOff_eq]
  rfl

/-- The completion step of a `led.dispose` that runs. -/
theorem finish_ledDisposeCommit (arr : Vector LedEntry 7) (u : State) : finish .ok (ledDisposeCommit arr u) = { u with
    led := arr.map fun e => ⟨e.level, 0#8, 0#8, 0#8⟩, ledState := .released, code := .ok
    latch := { u.latch with busy := false } } := by
  rw [ledDisposeCommit_eq, finish_ok]

theorem programOf_ledDispose_of_ready {s : State} (h : s.ledState = .ready) :
    programOf .ledDispose s = emitPins (ledDisposeEvents s) (.done .ok (ledDisposeCommit s.led)) := if_pos h

/-- Settles O36, by the position's place among the 815 events. -/
theorem ledDisposeTurnsOffAndReleases : Obligations.LedDisposeTurnsOffAndReleases := by
  intro s hr
  refine ⟨fun e he => ?_, fun hpos => ?_⟩
  · rw [← ledDisposeEvents_eq] at he
    rw [exec_eq, programOf_ledDispose_of_ready hr, advance_emitPins_of_some he]
  · have hover : (ledDisposeEvents s).length ≤ s.latch.pos := by rwa [ledDisposeEvents_length]
    rw [exec_eq, programOf_ledDispose_of_ready hr, advance_emitPins_of_le hover, advance_done,
      finish_ledDisposeCommit]

theorem afterPins_ledDisposeEvents {s : State} (h : s.latch.pos = 0) : afterPins (ledDisposeEvents s) s = { s with
    pins := ⟨.z, .z, .z⟩, pinTrace := s.pinTrace ++ ledDisposeEvents s, latch := { s.latch with pos := 815 } } := by
  rw [afterPins, pinsAfter_ledDisposeEvents, ledDisposeEvents_length, h]

/-- Settles O38: the run of the 815 events, then the completion that stores the darkened array. -/
theorem ledDisposeRunsToCompletion : Obligations.LedDisposeRunsToCompletion := by
  intro s ha hr off
  have hrun := run_accepted ha
  obtain ⟨-, -, hpos, -⟩ := ha
  rw [programOf_ledDispose_of_ready hr, runProgram_emitPins, runProgram_done, afterPins_ledDisposeEvents hpos,
    ledDisposeEvents_length, ledDisposeEvents_eq, ← List.append_assoc] at hrun
  exact hrun.trans (congrArg _ (finish_ledDisposeCommit _ _))

end Sys2Proof.Machine
end

section
/-!
PROOF. `nop` and `env.dispose`, which complete in their first step (43_system.md R241, R243).
-/
namespace Sys2Proof.Machine

/-- A step of a program that is a completion with OK. -/
theorem exec_of_done_ok {i : Instr} {s : State} {f : State → State} (h : programOf i s = .done .ok f) :
    exec i s = .next { f s with code := .ok, latch := { (f s).latch with busy := false } } := by
  rw [exec_eq, h, advance_done, finish_ok]

theorem exec_nop (s : State) : exec .nop s = .next { s with code := .ok, latch := { s.latch with busy := false } } :=
  exec_of_done_ok (i := .nop) (f := id) rfl

/-- Settles O57: the accepted word 0 is a running `nop`, whose one step completes. -/
theorem nopCompletesOk : Obligations.NopCompletesOk := by
  refine ⟨exec_nop, fun s hs hb => ?_⟩
  have haccept : hostAccess (.write 0x00#8 4 0x00000000#32) s = .next (accept 0x00000000#32 s) := by
    rw [hostAccess_write_aligned rfl, hostWrite_cmd_of_idle hb]
  have hrunning : Running .nop (accept 0x00000000#32 s) := ⟨rfl, decodeOfEncode .nop rfl⟩
  have hstep : step (accept 0x00000000#32 s) = exec .nop (accept 0x00000000#32 s) := step_running hs hrunning
  exact ⟨_, _, haccept, rfl, hstep.trans (exec_nop _), rfl, rfl, rfl⟩

/-- Settles O51: the rule is the one completion, with the readiness deciding which. -/
theorem envDisposeReleases : Obligations.EnvDisposeReleases := fun _ =>
  ⟨fun h => exec_of_done_ok (i := .envDispose) (f := envDisposeCommit) (if_neg h), fun h => exec_of_done_id (if_pos h)⟩

end Sys2Proof.Machine
end

section
/-!
PROOF. `seg.dispose`: the blank frame of a READY display and the release (43_system.md R242).
-/
namespace Sys2Proof.Machine

/-- The pointer byte, then four space masks, low byte first (42_segment_display.md R213). -/
def blankBytes (p : Params) : List Byte :=
  let lo := (enc p 0x20#8).extractLsb' 0 8
  let hi := (enc p 0x20#8).extractLsb' 8 8
  [0x00#8, lo, hi, lo, hi, lo, hi, lo, hi]

theorem frameBytes_blankCells (p : Params) : frameBytes (blankCells p) = blankBytes p := frameBytes_eq _

/-- How many transactions the body of `seg.dispose` makes (43_system.md R242). -/
def blankWrites (s : State) : Nat := if s.segState = .ready then 1 else 0

theorem segDisposeEvents_of_ready {s : State} (h : s.segState = .ready) (k : Program) :
    segDisposeEvents s k = .write (Config.segAddr s.params) (blankBytes s.params) k := by
  rw [segDisposeEvents, if_pos h, frameWrite, frameBytes_blankCells]

theorem segDisposeEvents_of_not_ready {s : State} (h : s.segState ≠ .ready) (k : Program) : segDisposeEvents s k = k :=
  if_neg h

theorem advance_segDisposeEvents_of_ready {s : State} (h : s.segState = .ready) (k : Program) (rx : List Answer) (u : State) :
    advance (segDisposeEvents s k) 0 rx u = emitWrite (Config.segAddr s.params) (blankBytes s.params) u := by
  rw [segDisposeEvents_of_ready h, advance_write_zero]

theorem advance_segDisposeEvents_done {s : State} {pos : Nat} (h : blankWrites s ≤ pos) (c : Code) (f : State → State)
    (rx : List Answer) (u : State) : advance (segDisposeEvents s (.done c f)) pos rx u = finish c (f u) := by
  by_cases hr : s.segState = .ready
  · rw [blankWrites, if_pos hr] at h
    rw [segDisposeEvents_of_ready hr, ← Nat.sub_add_cancel h, advance_write_succ, advance_done]
  · rw [segDisposeEvents_of_not_ready hr, advance_done]

theorem programOf_segDispose_of_not_released {s : State} (h : s.segState ≠ .released) :
    programOf .segDispose s = segDisposeEvents s (.done .ok (segDisposeCommit s.segState)) := if_neg h

theorem segState_ne_released_of_ready {s : State} (h : s.segState = .ready) : s.segState ≠ .released := by
  rw [h]
  nofun

/-- The completion step of a `seg.dispose` that runs. -/
theorem exec_segDispose_completes {s : State} (h : s.segState ≠ .released) (hpos : blankWrites s ≤ s.latch.pos) :
    exec .segDispose s = .next { s with
      frame := if s.segState = .ready then blankCells s.params else s.frame, segState := .released, code := .ok
      latch := { s.latch with busy := false } } := by
  rw [exec_eq, programOf_segDispose_of_not_released h, advance_segDisposeEvents_done hpos, finish_ok]
  rfl

/-- Settles O56, by the readiness, and in READY by whether the frame write is still to come. -/
theorem segDisposeBlanksAndReleases : Obligations.SegDisposeBlanksAndReleases := by
  intro s
  refine ⟨fun h => exec_of_done_id (if_pos h), fun h hpos => ?_, fun h hpos => ?_, fun h hreleased => ?_⟩
  · rw [exec_eq, programOf_segDispose_of_not_released (segState_ne_released_of_ready h), hpos,
      advance_segDisposeEvents_of_ready h]
    rfl
  · have hover : blankWrites s ≤ s.latch.pos := by rwa [blankWrites, if_pos h]
    rw [exec_segDispose_completes (segState_ne_released_of_ready h) hover, if_pos h]
    rfl
  · have hover : blankWrites s ≤ s.latch.pos := by rw [blankWrites, if_neg h]; exact Nat.zero_le _
    rw [exec_segDispose_completes hreleased hover, if_neg h]

end Sys2Proof.Machine
end

section
/-!
PROOF. `dispose.all`: its events and its commit for every readiness of the engines, step by step and as a whole run
(43_system.md R244).
-/
namespace Sys2Proof.Machine

/-! ### The commit, engine by engine -/

theorem ledDisposeCommit_unless_released {s u : State} (h : u.ledState = s.ledState) :
    (if s.ledState = .released then u else ledDisposeCommit s.led u) = { u with
      led := if s.ledState = .released then u.led else s.led.map fun e => ⟨e.level, 0#8, 0#8, 0#8⟩
      ledState := .released } := by
  by_cases hr : s.ledState = .released
  · rw [if_pos hr, if_pos hr, ← h.trans hr]
  · rw [if_neg hr, if_neg hr, ledDisposeCommit_eq]

theorem envDisposeCommit_unless_released {s u : State} (h : u.envState = s.envState) :
    (if s.envState = .released then u else envDisposeCommit u) = { u with
      calValid := if s.envState = .released then u.calValid else false, envState := .released } := by
  by_cases hr : s.envState = .released
  · rw [if_pos hr, if_pos hr, ← h.trans hr]
  · rw [if_neg hr, if_neg hr, envDisposeCommit]

theorem segDisposeCommit_unless_released {s u : State} (h : u.segState = s.segState) :
    (if s.segState = .released then u else segDisposeCommit s.segState u) = { u with
      frame := if s.segState = .ready then blankCells u.params else u.frame, segState := .released } := by
  by_cases hr : s.segState = .released
  · have hready : s.segState ≠ .ready := fun h => segState_ne_released_of_ready h hr
    rw [if_pos hr, if_neg hready, ← h.trans hr]
  · rw [if_neg hr, segDisposeCommit]

/-- The completion step of `dispose.all`, from a state with the readiness it started from. -/
theorem finish_disposeAllCommit {s u : State} (hled : u.ledState = s.ledState) (henv : u.envState = s.envState)
    (hseg : u.segState = s.segState) : finish .ok (disposeAllCommit s u) = { u with
      led := if s.ledState = .released then u.led else s.led.map fun e => ⟨e.level, 0#8, 0#8, 0#8⟩
      ledState := .released
      calValid := if s.envState = .released then u.calValid else false
      envState := .released
      frame := if s.segState = .ready then blankCells u.params else u.frame
      segState := .released
      code := .ok, latch := { u.latch with busy := false } } := by
  rw [disposeAllCommit, ledDisposeCommit_unless_released hled, envDisposeCommit_unless_released,
    segDisposeCommit_unless_released, finish_ok]
  · exact hseg
  · exact henv

/-! ### The events -/

/-- The pin events of `dispose.all` (43_system.md R244). -/
def disposeAllPins (s : State) : List PinEvent := if s.ledState = .released then [] else ledDisposeEvents s

theorem programOf_disposeAll (s : State) : programOf .disposeAll s =
    emitPins (disposeAllPins s) (segDisposeEvents s (.done .ok (disposeAllCommit s))) := rfl

theorem disposeAllPins_of_not_released {s : State} (h : s.ledState ≠ .released) :
    disposeAllPins s = ledDisposeEvents s := if_neg h

theorem disposeAllPins_length (s : State) : (disposeAllPins s).length = if s.ledState = .released then 0 else 815 := by
  rw [disposeAllPins, apply_ite List.length, ledDisposeEvents_length]
  rfl

theorem pinsAfter_disposeAllPins (s : State) (p : Pins) :
    pinsAfter (disposeAllPins s) p = if s.ledState = .released then p else ⟨.z, .z, .z⟩ := by
  rw [disposeAllPins, apply_ite (pinsAfter · p), pinsAfter_ledDisposeEvents]
  rfl

/-- Settles O58, by the position's place: among the pin events, at the frame write, or past both. -/
theorem disposeAllCommits : Obligations.DisposeAllCommits := by
  intro s off lo hi ledEvents
  have hlen : (disposeAllPins s).length = ledEvents := disposeAllPins_length s
  refine ⟨fun e h he => ?_, fun h hpos => ?_, fun hpos => ?_⟩
  · rw [← ledDisposeEvents_eq, ← disposeAllPins_of_not_released h] at he
    rw [exec_eq, programOf_disposeAll, advance_emitPins_of_some he]
  · have hover : (disposeAllPins s).length ≤ s.latch.pos := Nat.le_of_eq (hlen.trans hpos.symm)
    rw [exec_eq, programOf_disposeAll, advance_emitPins_of_le hover, hlen, hpos, Nat.sub_self,
      advance_segDisposeEvents_of_ready h]
    rfl
  · have hover : (disposeAllPins s).length ≤ s.latch.pos := by
      rw [hlen]
      exact Nat.le_of_add_right_le hpos
    have hwrites : blankWrites s ≤ s.latch.pos - (disposeAllPins s).length := by
      rw [hlen]
      exact Nat.le_sub_of_add_le' hpos
    rw [exec_eq, programOf_disposeAll, advance_emitPins_of_le hover, advance_segDisposeEvents_done hwrites,
      finish_disposeAllCommit rfl rfl rfl]
    rfl

/-! ### The whole run -/

/-- The state after the transactions of the body of `seg.dispose` started in `s`. -/
def afterBlankWrites (s u : State) : State :=
  { u with busTrace := u.busTrace ++
             if s.segState = .ready then [.write (Config.segAddr s.params) (blankBytes s.params)] else []
           latch := { u.latch with pos := u.latch.pos + blankWrites s } }

theorem runProgram_segDisposeEvents (s : State) (c : Code) (f : State → State) (u : State) :
    runProgram (segDisposeEvents s (.done c f)) u = (blankWrites s + 1, finish c (f (afterBlankWrites s u))) := by
  by_cases h : s.segState = .ready
  · simp only [segDisposeEvents_of_ready h, runProgram_write, runProgram_done, emitWrite, afterBlankWrites, blankWrites,
      if_pos h]
  · simp only [segDisposeEvents_of_not_ready h, runProgram_done, afterBlankWrites, blankWrites, if_neg h, List.append_nil,
      Nat.add_zero, Nat.zero_add]

/-- The state of an accepted `dispose.all` after its last event. -/
def afterDisposeAllEvents (s : State) : State := afterBlankWrites s (afterPins (disposeAllPins s) s)

theorem afterDisposeAllEvents_eq {s : State} (h : s.latch.pos = 0) : afterDisposeAllEvents s = { s with
    pins := if s.ledState = .released then s.pins else ⟨.z, .z, .z⟩
    pinTrace := s.pinTrace ++ disposeAllPins s
    busTrace := s.busTrace ++
      if s.segState = .ready then [.write (Config.segAddr s.params) (blankBytes s.params)] else []
    latch := { s.latch with pos := (disposeAllPins s).length + blankWrites s } } := by
  rw [← pinsAfter_disposeAllPins, ← Nat.zero_add (disposeAllPins s).length, ← h]
  rfl

/-- The run of an accepted `dispose.all`: the pin events, the transactions, the completion. -/
theorem run_disposeAll {s : State} (ha : Accepted .disposeAll s) :
    runSteps ((disposeAllPins s).length + blankWrites s + 1) s =
      .next (finish .ok (disposeAllCommit s (afterDisposeAllEvents s))) := by
  have hrun := run_accepted ha
  rw [programOf_disposeAll, runProgram_emitPins, runProgram_segDisposeEvents, Nat.add_comm, ← Nat.add_assoc] at hrun
  exact hrun

/-- Settles O59: the first 815 steps are pin events, and the whole run is these, the frame write and the completion. -/
theorem disposeAllRunsInOrder : Obligations.DisposeAllRunsInOrder := by
  intro s ha off lo hi ledEvents events
  refine ⟨fun h k hk => ?_, ?_⟩
  · have hpins : disposeAllPins s = ledDisposeEvents s := disposeAllPins_of_not_released h
    have hwithin : k ≤ (disposeAllPins s).length := by rwa [hpins, ledDisposeEvents_length]
    refine ⟨_, run_pins ha (programOf_disposeAll s) k hwithin, ?_, ?_, rfl⟩
    · obtain ⟨-, ⟨hbusy, -⟩, -, -⟩ := ha
      exact hbusy
    · rw [hpins, ledDisposeEvents_eq]
      rfl
  · have hrun := run_disposeAll ha
    obtain ⟨-, -, hpos, -⟩ := ha
    rw [afterDisposeAllEvents_eq hpos, disposeAllPins_length, disposeAllPins, ledDisposeEvents_eq] at hrun
    exact hrun.trans (congrArg _ (finish_disposeAllCommit rfl rfl rfl))

end Sys2Proof.Machine
end

section
/-!
PROOF. The completion codes a command reports, and the words of the status, operand and result registers
(60_exceptions.md R260, R261, R263; 10_state.md R20 to R24).
-/
namespace Sys2Proof.Machine

/-! ### Completion codes -/

/-- A step that clears BUSY is the completion at a leaf of the command's program; the readiness an init command enters
before it leaves the sticky flags. -/
theorem exec_completion {i : Instr} {s t : State} (hb : s.latch.busy = true) (h : exec i s = .next t)
    (hbt : t.latch.busy = false) : ∃ c f u, LeafOk i s c f ∧ u.sticky = s.sticky ∧ t = finish c (f u) := by
  obtain ⟨e, g, -, -, ⟨_, _⟩ | ⟨c, f, hleaf, ht⟩⟩ := exec_emitted_or_done h
  · exact absurd (hbt.symm.trans hb) Bool.false_ne_true
  · exact ⟨c, f, { s with envState := e, segState := g }, hleaf, rfl, ht⟩

/-- Settles O9: the leaf completed at has a code of the command's row, its commit keeps the sticky flags, and `finish`
adds the code's own. -/
theorem completionReportsOneCode : Obligations.CompletionReportsOneCode := by
  intro i s t hb h hbt
  obtain ⟨c, f, u, ⟨hcode, hcommit⟩, hu, rfl⟩ := exec_completion hb h hbt
  refine ⟨hcode, ?_⟩
  rw [finish_sticky, finish_code, stickyAfter_clear_none, hcommit.sticky, hu]

/-! ### The word read at `STATUS` -/

/-- The three fields of `STATUS`. -/
theorem statusWord_fields (s : State) : (statusWord s).extractLsb' 0 1 = BitVec.ofBool s.latch.busy ∧
    (statusWord s).extractLsb' 4 4 = codeNumber s.code ∧ (statusWord s).extractLsb' 8 7 = s.sticky := by
  unfold statusWord
  refine ⟨BitVec.extractLsb'_append_eq_right, ?_, ?_⟩
  · exact extract_above (extract_above BitVec.extractLsb'_append_eq_right (by decide)) (by decide)
  · exact extract_above (extract_above (extract_above BitVec.extractLsb'_append_eq_right
      (by decide)) (by decide)) (by decide)

/-- The bits of `STATUS` outside its fields. -/
theorem statusWord_zeros (s : State) : (statusWord s).extractLsb' 1 3 = 0#3 ∧ (statusWord s).extractLsb' 15 17 = 0#17 := by
  unfold statusWord
  refine ⟨extract_above BitVec.extractLsb'_append_eq_right (by decide), ?_⟩
  exact extract_above (extract_above (extract_above BitVec.extractLsb'_append_eq_left
    (by decide)) (by decide)) (by decide)

theorem statusWord_bit_zero (s : State) : (statusWord s).getLsbD 0 = s.latch.busy := by
  obtain ⟨hbusy, -, -⟩ := statusWord_fields s
  simpa using congrArg (·.getLsbD 0) hbusy

/-- Settles O19: the fields of the word `STATUS` shows; the other registers show or take a field of the state as it is. -/
theorem statusAndOperandRegisters : Obligations.StatusAndOperandRegisters := by
  intro s v
  obtain ⟨-, hcode, hsticky⟩ := statusWord_fields s
  obtain ⟨hlow, hhigh⟩ := statusWord_zeros s
  have harg0 : hostAccess (.write 0x04#8 4 v) s = .next { s with arg0 := v } := hostAccess_write_aligned (by decide) v s
  have harg1 : hostAccess (.write 0x08#8 4 v) s = .next { s with arg1 := v } := hostAccess_write_aligned (by decide) v s
  exact ⟨rfl, statusWord_bit_zero s, hlow, hcode, hsticky, hhigh, rfl, rfl, rfl, rfl, rfl, harg0, harg1,
    rfl, rfl, rfl, rfl, rfl, rfl, rfl⟩

end Sys2Proof.Machine
end

section
/-!
PROOF. A RELEASED engine stays silent: it drives no line, its device is not addressed, and only reset leaves RELEASED
(70_reset_and_hazards.md R296, 10_state.md R30).
-/
namespace Sys2Proof.Machine

/-! ### The events a step adds -/

/-- The two devices have different addresses in every configuration (20_memory.md R87). -/
theorem segAddr_ne_envAddr (p : Params) : Config.segAddr p ≠ p.envAddr := by
  have hgap : p.segGap.val < 127 := p.segGap.isLt
  unfold Config.segAddr
  bv_omega

theorem BusOk.ne_envAddr {s : State} {a : BusAddr} (h : BusOk s a) (hr : s.envState = .released) :
    a ≠ s.params.envAddr := by
  rcases h with ⟨-, hne⟩ | ⟨rfl, -⟩
  · exact absurd hr hne
  · exact segAddr_ne_envAddr s.params

theorem BusOk.ne_segAddr {s : State} {a : BusAddr} (h : BusOk s a) (hr : s.segState = .released) :
    a ≠ Config.segAddr s.params := by
  rcases h with ⟨rfl, -⟩ | ⟨-, hne⟩
  · exact (segAddr_ne_envAddr s.params).symm
  · exact absurd hr hne

/-- The events that a step from `s` to `t` adds to the traces are those an engine of `s` may cause. -/
def AddsPermitted (s t : State) : Prop :=
  (∀ e ∈ t.pinTrace.drop s.pinTrace.length, PinOk s e) ∧
  ∀ e ∈ t.busTrace.drop s.busTrace.length, BusOk s e.device

theorem addsPermitted_of_appends {s t : State} {ps : List PinEvent} {bs : List BusEvent}
    (hp : t.pinTrace = s.pinTrace ++ ps) (hb : t.busTrace = s.busTrace ++ bs) (hps : ∀ e ∈ ps, PinOk s e)
    (hbs : ∀ e ∈ bs, BusOk s e.device) : AddsPermitted s t := by
  rw [AddsPermitted, hp, hb, List.drop_left, List.drop_left]
  exact ⟨hps, hbs⟩

theorem addsPermitted_of_traces_eq {s t : State} (hp : t.pinTrace = s.pinTrace) (hb : t.busTrace = s.busTrace) :
    AddsPermitted s t :=
  addsPermitted_of_appends (by rw [hp, List.append_nil]) (by rw [hb, List.append_nil]) (List.forall_mem_nil _) (List.forall_mem_nil _)

theorem addsPermitted_of_pin {s t : State} {e : PinEvent} (hp : t.pinTrace = s.pinTrace ++ [e])
    (hb : t.busTrace = s.busTrace) (he : PinOk s e) : AddsPermitted s t :=
  addsPermitted_of_appends hp (by rw [hb, List.append_nil]) (List.forall_mem_singleton.mpr he) (List.forall_mem_nil _)

theorem addsPermitted_of_transaction {s t : State} {e : BusEvent} (hp : t.pinTrace = s.pinTrace)
    (hb : t.busTrace = s.busTrace ++ [e]) (he : BusOk s e.device) : AddsPermitted s t :=
  addsPermitted_of_appends (by rw [hp, List.append_nil]) hb (List.forall_mem_nil _) (List.forall_mem_singleton.mpr he)

/-- A step of a command adds one event its program may contain, or none at its completion. -/
theorem exec_addsPermitted {i : Instr} {s t : State} (h : exec i s = .next t) : AddsPermitted s t := by
  obtain ⟨u, t', ht, hu, he⟩ := exec_cases i s
  cases ht.symm.trans h
  obtain ⟨env, seg, rfl, -, -⟩ := entered_keeps hu
  cases he with
  | done c f hleaf =>
    obtain ⟨-, hc⟩ := hleaf
    exact addsPermitted_of_traces_eq (hc.pinTrace _) (hc.busTrace _)
  | pin e he => exact addsPermitted_of_pin rfl rfl he
  | probe a ha => exact addsPermitted_of_transaction rfl rfl ha
  | read a r n ha => exact addsPermitted_of_transaction rfl rfl ha
  | write a b ha => exact addsPermitted_of_transaction rfl rfl ha

theorem step_addsPermitted {s t : State} (h : step s = .next t) : AddsPermitted s t := by
  cases step_cases h with
  | host => exact addsPermitted_of_traces_eq rfl rfl
  | illegal => exact addsPermitted_of_traces_eq rfl rfl
  | command i st r _ hi h => exact exec_addsPermitted (s := { s with sticky := st, script := r }) h
  | reset r =>
    have hpin : (resetInput { s with script := r }).pinTrace = [] := rfl
    have hbus : (resetInput { s with script := r }).busTrace = [] := rfl
    rw [AddsPermitted, hpin, hbus, List.drop_nil, List.drop_nil]
    exact ⟨List.forall_mem_nil _, List.forall_mem_nil _⟩

/-! ### RELEASED is left at reset only -/

theorem EngineStep.eq_released {own : Prop} {r' : Readiness} {b : Bool} (h : EngineStep own .released r' b) :
    r' = .released := by
  cases h with
  | keep => rfl
  | enter _ hr => rcases hr with hr | hr <;> cases hr
  | complete _ _ hr => rcases hr with hr | hr <;> cases hr
  | release => rfl

/-- No step of a command takes an engine out of RELEASED. -/
theorem exec_released {i : Instr} {s t : State} (h : exec i s = .next t) (hb : s.latch.busy = true) (e : Engine)
    (hr : readiness e s = .released) : readiness e t = .released := by
  cases e with
  | led => exact (exec_ledState h).elim (·.trans hr) id
  | env =>
    have henv := engineStep_env h hb
    rw [show s.envState = .released from hr] at henv
    exact henv.eq_released
  | seg =>
    have hseg := engineStep_seg h hb
    rw [show s.segState = .released from hr] at hseg
    exact hseg.eq_released

theorem step_released {s t : State} (h : step s = .next t) (e : Engine) (hr : readiness e s = .released) :
    readiness e t = .released ∨ s.script.head? = some .reset := by
  cases step_cases h with
  | host => exact .inl hr
  | illegal => exact .inl hr
  | command i st r _ hi h => exact .inl (exec_released (s := { s with sticky := st, script := r }) h hi.1 e hr)
  | reset r hreset => exact .inr hreset

/-- Settles O26: every event a step adds is one that a readiness other than RELEASED permits. -/
theorem releasedEnginesStaySilent : Obligations.ReleasedEnginesStaySilent := by
  intro s t h
  obtain ⟨hpins, hbus⟩ := step_addsPermitted h
  refine ⟨fun hr => ⟨?_, step_released h .led hr⟩, fun hr => ⟨?_, step_released h .env hr⟩,
    fun hr => ⟨?_, step_released h .seg hr⟩⟩
  · exact List.eq_nil_iff_forall_not_mem.mpr fun e he => hpins e he hr
  · exact fun e he => (hbus e he).ne_envAddr hr
  · exact fun e he => (hbus e he).ne_segAddr hr

end Sys2Proof.Machine
end

section
/-!
PROOF. The reset state: the values of the reset table and the invariant; and the operands a command latches
(70_reset_and_hazards.md R290, R293, R297).
-/
namespace Sys2Proof.Machine

/-- A reset leaves the power-on state as it is, so what holds after every reset holds at power-on. -/
theorem resetInput_reset : resetInput State.reset = State.reset := rfl

/-- Settles O24. -/
theorem resetMeetsTheInvariant : Obligations.ResetMeetsTheInvariant := by
  unfold Obligations.ResetMeetsTheInvariant
  rw [← resetInput_reset]
  exact resetInput_consistent State.reset

/-- The readiness of 70_reset_and_hazards.md R290 as `ENG_STATE` shows it. -/
theorem engStateWord_resetInput (s : State) : engStateWord (resetInput s) = 0x00000002#32 := by
  have hled : (resetInput s).ledState = .ready := rfl
  have henv : (resetInput s).envState = .uninitialized := rfl
  have hseg : (resetInput s).segState = .uninitialized := rfl
  rw [engStateWord, hled, henv, hseg]
  rfl

theorem resetInput_led_dark (s : State) (i : Fin 7) : (resetInput s).led[i] = LedEntry.dark :=
  Vector.getElem_replicate i.isLt

theorem resetInput_frame_space (s : State) (c : Fin 4) :
    some (resetInput s).frame[c] = Config.charset (resetInput s).params 0x20#8 := by
  have hcell : (resetInput s).frame[c] = s.params.spaceMask := Vector.getElem_replicate c.isLt
  rw [hcell, charset_space, resetInput_params]

theorem resetInput_afterReset (s : State) : AfterReset (resetInput s) where
  notBusy := rfl
  args := ⟨rfl, rfl⟩
  results := ⟨rfl, rfl, rfl⟩
  code := rfl
  sticky := rfl
  wt := rfl
  ledState := rfl
  envState := rfl
  segState := rfl
  engState := engStateWord_resetInput s
  leds := resetInput_led_dark s
  calValid := rfl
  frame := resetInput_frame_space s
  pins := rfl
  info := rfl
  traces := ⟨rfl, rfl⟩

theorem step_reset {s : State} {rest : List Turn} (h : s.script = .reset :: rest) :
    step s = .next (resetInput { s with script := rest }) := by
  simp [step, nextTurn, h]

/-- Settles O21: the table after every reset input, power-on included, and what the reset turn leaves outside it. -/
theorem resetLeavesTheTable : Obligations.ResetLeavesTheTable :=
  ⟨resetInput_reset ▸ resetInput_afterReset State.reset,
    fun _ _ h => ⟨_, step_reset h, resetInput_afterReset _, rfl, rfl, rfl, rfl⟩⟩

/-! ### The latched operands -/

/-- Settles O10: acceptance copies the live operands, and no step of a command reads them. -/
theorem operandsAreLatched : Obligations.OperandsAreLatched := by
  refine ⟨fun s w hb => ⟨accept w s, ?_, rfl, rfl, rfl⟩, fun i s t a b c h => exec_withOperands h a b c⟩
  rw [hostAccess_write_aligned (by decide), hostWrite_cmd_of_idle hb]

end Sys2Proof.Machine
end

section
/-!
PROOF. Every accepted command completes, within 817 sequencer steps (70_reset_and_hazards.md R300, R301).
-/
namespace Sys2Proof.Machine

/-! ### The number of steps a program takes -/

/-- The program completes within `n` steps, whatever state it runs from and whatever the devices answer. -/
def CompletesWithin (n : Nat) (p : Program) : Prop := ∀ s, (runProgram p s).1 ≤ n

theorem CompletesWithin.mono {m n : Nat} {p : Program} (h : CompletesWithin m p) (hmn : m ≤ n) : CompletesWithin n p :=
  fun s => Nat.le_trans (h s) hmn

theorem completesWithin_done {n : Nat} (hn : 1 ≤ n) (c : Code) (f : State → State) : CompletesWithin n (.done c f) :=
  fun _ => hn

theorem CompletesWithin.initializing {n : Nat} {k : Program} (h : CompletesWithin n k) (e : Engine) :
    CompletesWithin n (.initializing e k) :=
  fun s => h (setReadiness e .initializing s)

theorem CompletesWithin.write {n : Nat} {k : Program} (h : CompletesWithin n k) (a : BusAddr) (bytes : List Byte) :
    CompletesWithin (n + 1) (.write a bytes k) :=
  fun s => Nat.succ_le_succ (h (emitWrite a bytes s))

theorem completesWithin_probe {n : Nat} {k : Bool → Program} (h : ∀ ack, CompletesWithin n (k ack)) (a : BusAddr) :
    CompletesWithin (n + 1) (.probe a k) :=
  fun s => Nat.succ_le_succ (h (nextAck s) (emitProbe a s))

theorem completesWithin_read {n len : Nat} {k : Vector Byte len → Program} (h : ∀ v, CompletesWithin n (k v)) (a : BusAddr)
    (r : Byte) : CompletesWithin (n + 1) (.read a r len k) :=
  fun s => Nat.succ_le_succ (h _ (emitRead a r len s))

theorem CompletesWithin.emitPins {n : Nat} {k : Program} (h : CompletesWithin n k) (es : List PinEvent) :
    CompletesWithin (n + es.length) (emitPins es k) := by
  intro s
  rw [runProgram_emitPins]
  exact Nat.add_le_add_right (h _) _

theorem CompletesWithin.byteWrites {n : Nat} {k : Program} (h : CompletesWithin n k) (a : BusAddr) (bs : List Byte) :
    CompletesWithin (n + bs.length) (byteWrites a bs k) := by
  intro s
  rw [runProgram_byteWrites]
  exact Nat.add_le_add_right (h _) _

theorem completesWithin_captureCoefs {n : Nat} {next : Vector (BitVec 16) 12 → Program}
    (h : ∀ v, CompletesWithin n (next v)) (p : Params) (ks : List (Fin 12)) (v : Vector (BitVec 16) 12) :
    CompletesWithin (n + ks.length) (captureCoefs p ks v next) := by
  induction ks generalizing v with
  | nil => exact h v
  | cons k ks ih => exact completesWithin_read (fun b => ih _) _ _

/-! ### The program of each command -/

/-- At most one flush, then the completion. -/
theorem completesWithin_changeLeds (t : Target) (f : LedEntry → LedEntry) (s : State) :
    CompletesWithin 813 (changeLeds t f s) := by
  unfold changeLeds
  split
  · split
    · exact completesWithin_done (by decide) _ _
    · next T _ =>
      have hlen : (if s.latch.wt then flushEvents (updateLeds T f s.led) else []).length ≤ 812 := by
        split
        · exact Nat.le_of_eq (flushEvents_length _)
        · exact Nat.zero_le _
      have hdone := completesWithin_done (n := 1) (Nat.le_refl _) .ok fun u => { u with led := updateLeds T f s.led }
      exact (hdone.emitPins _).mono (by omega)
  · exact completesWithin_done (by decide) _ _

theorem completesWithin_ledFlush (s : State) : CompletesWithin 813 (ledFlushProgram s) := by
  unfold ledFlushProgram
  split
  · have hflush := (completesWithin_done (Nat.le_refl 1) .ok id).emitPins (flushEvents s.led)
    rwa [flushEvents_length] at hflush
  · exact completesWithin_done (by decide) _ _

theorem completesWithin_ledDispose (s : State) : CompletesWithin 816 (ledDisposeProgram s) := by
  unfold ledDisposeProgram
  split
  · have hdispose := (completesWithin_done (Nat.le_refl 1) .ok (ledDisposeCommit s.led)).emitPins (ledDisposeEvents s)
    rwa [ledDisposeEvents_length] at hdispose
  · exact completesWithin_done (by decide) _ _

theorem completesWithin_envInitCapture (p : Params) (coef : Vector (BitVec 16) 12) :
    CompletesWithin 14 (envInitCapture p coef) :=
  completesWithin_captureCoefs (fun _ => (completesWithin_done (Nat.le_refl 1) _ _).write _ _) p coefOrder coef

theorem completesWithin_envInitAfterProbe (p : Params) (coef : Vector (BitVec 16) 12) (ack : Bool) :
    CompletesWithin 15 (envInitAfterProbe p coef ack) := by
  unfold envInitAfterProbe
  split
  · refine completesWithin_read (fun id => ?_) _ _
    unfold envInitAfterId
    split
    · exact completesWithin_envInitCapture p coef
    · exact completesWithin_done (by decide) _ _
  · exact completesWithin_done (by decide) _ _

theorem completesWithin_envInit (s : State) : CompletesWithin 16 (envInitProgram s) := by
  by_cases hprobes : s.envState = .uninitialized ∨ s.envState = .initializing
  · have hprog : envInitProgram s = _ := programOf_envInit_of_probes hprobes
    rw [hprog]
    exact (completesWithin_probe (completesWithin_envInitAfterProbe _ _) _).initializing _
  · unfold envInitProgram
    split
    case h_4 h | h_5 h => exact absurd (by simp [h]) hprobes
    all_goals exact completesWithin_done (by decide) _ _

theorem completesWithin_segInitAfterProbe (p : Params) (ack : Bool) : CompletesWithin 4 (segInitAfterProbe p ack) := by
  unfold segInitAfterProbe
  split
  · exact (completesWithin_done (Nat.le_refl 1) _ _).byteWrites _ (setupBytes p)
  · exact completesWithin_done (by decide) _ _

theorem completesWithin_segInit (s : State) : CompletesWithin 5 (segInitProgram s) := by
  by_cases hprobes : s.segState = .uninitialized ∨ s.segState = .initializing
  · have hprog : segInitProgram s = _ := programOf_segInit_of_probes hprobes
    rw [hprog]
    exact (completesWithin_probe (completesWithin_segInitAfterProbe _) _).initializing _
  · unfold segInitProgram
    split
    case h_4 h | h_5 h => exact absurd (by simp [h]) hprobes
    all_goals exact completesWithin_done (by decide) _ _

theorem completesWithin_envReadT (s : State) : CompletesWithin 2 (envReadTProgram s) := by
  unfold envReadTProgram
  split
  · exact completesWithin_read (fun _ => completesWithin_done (Nat.le_refl 1) _ _) _ _
  · exact completesWithin_done (by decide) _ _

theorem completesWithin_envReadP (s : State) : CompletesWithin 3 (envReadPProgram s) := by
  by_cases hr : s.envState = .ready
  · have hprog : envReadPProgram s = _ := programOf_envReadP_of_ready hr
    rw [hprog]
    exact completesWithin_read (fun _ => completesWithin_read (fun _ => completesWithin_done (Nat.le_refl 1) _ _) _ _) _ _
  · rw [envReadPProgram, if_neg hr]
    exact completesWithin_done (by decide) _ _

theorem completesWithin_envDispose (s : State) : CompletesWithin 1 (envDisposeProgram s) := by
  unfold envDisposeProgram
  split <;> exact completesWithin_done (Nat.le_refl 1) _ _

theorem completesWithin_segShow (n : Nat) (a : Align) (s : State) : CompletesWithin 2 (segShowProgram n a s) := by
  unfold segShowProgram
  split
  · split
    · exact completesWithin_done (by decide) _ _
    · exact (completesWithin_done (Nat.le_refl 1) _ _).write _ _
  · exact completesWithin_done (by decide) _ _

theorem completesWithin_segDisposeEvents (s : State) (c : Code) (f : State → State) :
    CompletesWithin 2 (segDisposeEvents s (.done c f)) := by
  have hwrites : blankWrites s ≤ 1 := by
    unfold blankWrites
    split <;> decide
  intro u
  rw [runProgram_segDisposeEvents]
  exact Nat.succ_le_succ hwrites

theorem completesWithin_segDispose (s : State) : CompletesWithin 2 (segDisposeProgram s) := by
  unfold segDisposeProgram
  split
  · exact completesWithin_done (by decide) _ _
  · exact completesWithin_segDisposeEvents s _ _

/-- The longest rule of all: the off-frame and the release of the lines, the blank frame, the completion. -/
theorem completesWithin_disposeAll (s : State) : CompletesWithin 817 (disposeAllProgram s) := by
  have hlen : (disposeAllPins s).length ≤ 815 := by
    rw [disposeAllPins_length]
    split <;> decide
  exact ((completesWithin_segDisposeEvents s _ _).emitPins (disposeAllPins s)).mono (by omega)

/-- The bound of every command is the one of `dispose.all`: no rule has more events than its 816. -/
theorem programOf_completesWithin (i : Instr) (s : State) : CompletesWithin 817 (programOf i s) := by
  cases i with
  | nop => exact completesWithin_done (by decide) _ _
  | ledSet | ledOn | ledOff => exact (completesWithin_changeLeds _ _ s).mono (by decide)
  | ledSetAll | ledOnAll | ledOffAll => exact (completesWithin_changeLeds .all _ s).mono (by decide)
  | ledFlush => exact (completesWithin_ledFlush s).mono (by decide)
  | ledDispose => exact (completesWithin_ledDispose s).mono (by decide)
  | envInit => exact (completesWithin_envInit s).mono (by decide)
  | envReadT => exact (completesWithin_envReadT s).mono (by decide)
  | envReadP => exact (completesWithin_envReadP s).mono (by decide)
  | envDispose => exact (completesWithin_envDispose s).mono (by decide)
  | segInit => exact (completesWithin_segInit s).mono (by decide)
  | segShow n a => exact (completesWithin_segShow n a s).mono (by decide)
  | segDispose => exact (completesWithin_segDispose s).mono (by decide)
  | disposeAll => exact completesWithin_disposeAll s

/-! ### The end of the run -/

/-- The run of a program ends in its completion, which clears BUSY. -/
theorem runProgram_not_busy (p : Program) (s : State) : (runProgram p s).2.latch.busy = false := by
  induction p generalizing s with
  | done c f => rfl
  | initializing e k ih => exact ih _
  | pin e k ih => exact ih _
  | probe a k ih => exact ih _ _
  | read a r n k ih => exact ih _ _
  | write a bytes k ih => exact ih _

/-- Settles O11: the run of an accepted command is that of its program, whose steps are bounded and whose end is idle. -/
theorem acceptedCommandCompletes : Obligations.AcceptedCommandCompletes := fun i s ha =>
  ⟨_, _, programOf_completesWithin i s s, run_accepted ha, runProgram_not_busy (programOf i s) s⟩

end Sys2Proof.Machine
end
